-- ==== Sys2Proof/Word.lean ====
section
/-! DEFINITION. The data types of the core: bytes, 4-byte words, 16-byte blocks, the eleven round keys
(00_scope.md R6, R9, R11; 43_key_schedule.md R170). -/

namespace Sys2Proof

/-- A byte: 8 bits, bit i the coefficient of x^i (00_scope.md R9). -/
abbrev Byte := BitVec 8

/-- Four bytes: a word of the key schedule (43_key_schedule.md R170), a column of the state, a DOT vector. -/
abbrev Quad := Vector Byte 4

/-- A 16-byte block, byte k at index k (00_scope.md R11, 20_memory.md R69). -/
abbrev Block := Vector Byte 16

/-- The eleven round keys RK[0..10] (10_state.md R24). -/
abbrev RoundKeys := Vector Block 11

end Sys2Proof
end

