-- ==== Sys2Proof/Syntax.lean ====
section
/-! DEFINITION. The command set (30_encoding.md R92), the error codes (60_exceptions.md R271), the host statements
(30_encoding.md R96, R97) and the agents (00_scope.md R13). -/

namespace Sys2Proof

/-- The 21 commands, one constructor per row of the opcode table (30_encoding.md R92). No command carries an operand in
its encoding (R93). -/
inductive Instr where
  | nop
  | keyexp
  | keyclr
  | enc
  | dec
  | encf
  | decf
  | pad
  | chkpad
  | gfmul
  | xtime
  | dot
  | sbox
  | isbox
  | subbytes
  | shiftrows
  | mixcol
  | addrk
  | invsubbytes
  | invshiftrows
  | invmixcol
  deriving DecidableEq, Repr

/-- The causes an error records, codes 0x01 to 0x06 (60_exceptions.md R271). -/
inductive ErrCode where
  | illegalCmd
  | noKey
  | badLen
  | badDotlen
  | badRksel
  | busyWrite
  deriving DecidableEq, Repr

/-- One bus transaction, the machine statements `WR a, d` and `RD a` (30_encoding.md R96). -/
inductive Transaction where
  | wr (a d : Byte)
  | rd (a : Byte)
  deriving DecidableEq, Repr

/-- A statement of a host program: one transaction, or POLL, the one loop among the pseudo-statements
(30_encoding.md R96, R97). -/
inductive HostStmt where
  | bus (t : Transaction)
  | poll
  deriving DecidableEq, Repr

/-- Who moves: the bus master, the command sequencer, or the reset event (00_scope.md R13). -/
inductive Turn where
  | host
  | core
  | reset
  deriving DecidableEq, Repr

end Sys2Proof
end

