-- ==== Sys2Proof/WellFormed.lean ====
section
/-! DEFINITION. Which bytes are commands (30_encoding.md R92, R94) and which 17-bit words list a host statement
(30_encoding.md R98). -/

namespace Sys2Proof

/-- The command bytes outside the illegal ranges of 30_encoding.md R94: 0x09..0x0F, 0x15..0x1F, 0x24..0x27, 0x2B..0xFF. -/
def legalOpcode (v : Byte) : Bool :=
  let n := v.toNat
  !((0x09 ≤ n && n ≤ 0x0F) || (0x15 ≤ n && n ≤ 0x1F) || (0x24 ≤ n && n ≤ 0x27) || 0x2B ≤ n)

/-- A 17-bit listing word: bit 16 says WR; the data byte of an RD is 0 (30_encoding.md R98; log 17). -/
def listingWellFormed (w : BitVec 17) : Bool :=
  w.getLsbD 16 || w.extractLsb' 0 8 == 0

/-- Every command is well formed as it stands: it has no operand field that could be out of range
(30_encoding.md R90, R93). -/
def Instr.wellFormed : Instr → Bool
  | .nop => true
  | .keyexp => true
  | .keyclr => true
  | .enc => true
  | .dec => true
  | .encf => true
  | .decf => true
  | .pad => true
  | .chkpad => true
  | .gfmul => true
  | .xtime => true
  | .dot => true
  | .sbox => true
  | .isbox => true
  | .subbytes => true
  | .shiftrows => true
  | .mixcol => true
  | .addrk => true
  | .invsubbytes => true
  | .invshiftrows => true
  | .invmixcol => true

end Sys2Proof
end

