-- ==== Sys2Proof/Decode.lean ====
section
/-! DEFINITION. The opcode map read as a table (30_encoding.md R90 to R94), its encoder, and the 17-bit listing words of
host statements (30_encoding.md R98). -/

namespace Sys2Proof

/-- The opcode map of 30_encoding.md R92, row by row. -/
def opcodeTable : List (Byte × Instr) :=
  [(0x00, .nop), (0x01, .keyexp), (0x02, .keyclr), (0x03, .enc), (0x04, .dec), (0x05, .encf), (0x06, .decf), (0x07, .pad),
   (0x08, .chkpad)] ++
  [(0x10, .gfmul), (0x11, .xtime), (0x12, .dot), (0x13, .sbox), (0x14, .isbox)] ++
  [(0x20, .subbytes), (0x21, .shiftrows), (0x22, .mixcol), (0x23, .addrk),
   (0x28, .invsubbytes), (0x29, .invshiftrows), (0x2A, .invmixcol)]

/-- The command a byte written to CMD stands for: the whole byte is matched against the table (mask 0xFF, 30_encoding.md
R90), and a byte outside it is refused as ILLEGAL_CMD (R94). -/
def decode (v : Byte) : Except ErrCode Instr :=
  match opcodeTable.find? (fun row => row.1 == v) with
  | some row => .ok row.2
  | none => .error .illegalCmd

/-- The command byte of an instruction (30_encoding.md R92). -/
def encode : Instr → Byte
  | .nop => 0x00
  | .keyexp => 0x01
  | .keyclr => 0x02
  | .enc => 0x03
  | .dec => 0x04
  | .encf => 0x05
  | .decf => 0x06
  | .pad => 0x07
  | .chkpad => 0x08
  | .gfmul => 0x10
  | .xtime => 0x11
  | .dot => 0x12
  | .sbox => 0x13
  | .isbox => 0x14
  | .subbytes => 0x20
  | .shiftrows => 0x21
  | .mixcol => 0x22
  | .addrk => 0x23
  | .invsubbytes => 0x28
  | .invshiftrows => 0x29
  | .invmixcol => 0x2A

/-- The command of a row of the opcode table: every command is one byte (30_encoding.md R91; log 10). -/
def decodeTableWord (nbits w : Nat) : Option Instr :=
  if nbits = 8 ∧ w < 256 then (decode (BitVec.ofNat 8 w)).toOption else none

/-- The 17-bit listing word of a transaction: W at bit 16, the address at 15:8, the data at 7:0, 0 for RD
(30_encoding.md R98). -/
def encodeListing : Transaction → BitVec 17
  | .wr a d => 1#1 ++ a ++ d
  | .rd a => 0#1 ++ a ++ 0#8

/-- The transaction a listing word stands for; an RD word with a data byte is no listing (30_encoding.md R98; log 17). -/
def decodeListing (w : BitVec 17) : Option Transaction :=
  if listingWellFormed w then
    if w.getLsbD 16 then some (.wr (w.extractLsb' 8 8) (w.extractLsb' 0 8)) else some (.rd (w.extractLsb' 8 8))
  else none

end Sys2Proof
end

