-- ==== Sys2Proof/Config.lean ====
section
/-! DEFINITION. What the spec leaves free: the values `draw()` gives (00_scope.md R12; 93_implementation_defined.md U12). -/

namespace Sys2Proof

/-- `draw()` of 00_scope.md R12: the n-th free byte of a run. It has no body, so nothing can be proved about its
value; the machine applies it to a counter that advances at each use (log 5). -/
opaque Config.draw : Nat → Byte

end Sys2Proof
end

