-- ==== Sys2Proof/Machine/Padding.lean ====
section
/-! DEFINITION. PKCS7 padding of one block (46_padding.md R240, R241). -/

namespace Sys2Proof.Machine

/-- `pad(s, len)`: positions len to 15 filled with 16 - len (46_padding.md R240). -/
def padBlock (s : Block) (len : Nat) : Block :=
  Vector.ofFn fun i => if i.val < len then s[i] else BitVec.ofNat 8 (16 - len)

/-- `checkPad(s)`: the last byte N when 1 ≤ N ≤ 16 and bytes 16 - N to 15 all equal N, else 0 (46_padding.md R241). -/
def checkPad (s : Block) : Nat :=
  let n := s[15].toNat
  if 1 ≤ n ∧ n ≤ 16 ∧ (List.finRange 16).all (fun i => decide (i.val < 16 - n) || s[i] == s[15]) then n else 0

end Sys2Proof.Machine
end

