-- ==== Sys2Proof/Machine/State.lean ====
section
/-! DEFINITION. The state of the machine: every register the spec gives the core (10_state.md R22 to R43), and beside them
the run the core takes part in: the host's program, the interleaving, the values read (70_reset_and_hazards.md R322). -/

namespace Sys2Proof.Machine

/-- The architectural state of the core. STATUS is held as its five bits (10_state.md R33); its byte is put together by
`statusByte`. CMD and RKWIN have no storage (10_state.md R41, R42). -/
structure Regs where
  /-- KEY[0..15], 10_state.md R22. -/
  key : Block
  /-- STATE[0..15], 10_state.md R23. -/
  state : Block
  /-- RK[0..10], the round-key store, 10_state.md R24. -/
  rk : RoundKeys
  /-- LEN, 10_state.md R25. -/
  len : Byte
  /-- PADN, 10_state.md R26. -/
  padn : Byte
  /-- OUTLEN, 10_state.md R27. -/
  outlen : Byte
  /-- RKSEL, 10_state.md R28. -/
  rksel : Byte
  /-- GF_A, 10_state.md R29. -/
  gfA : Byte
  /-- GF_B, 10_state.md R29. -/
  gfB : Byte
  /-- GF_R, 10_state.md R30. -/
  gfR : Byte
  /-- DOTLEN, 10_state.md R31. -/
  dotlen : Byte
  /-- DOTA[0..3], 10_state.md R32. -/
  dota : Quad
  /-- DOTB[0..3], 10_state.md R32. -/
  dotb : Quad
  /-- STATUS.BUSY, 10_state.md R34. -/
  busy : Bool
  /-- STATUS.DONE, 10_state.md R35. -/
  done : Bool
  /-- STATUS.ERR, 10_state.md R36. -/
  err : Bool
  /-- STATUS.KEYV, 10_state.md R37. -/
  keyv : Bool
  /-- STATUS.PADV, 10_state.md R38. -/
  padv : Bool
  /-- ERRCODE, 10_state.md R40. -/
  errcode : Byte
  /-- PEND, the pending command or none, 10_state.md R43. -/
  pend : Option Instr
  deriving DecidableEq, Repr

/-- The state of a run: the core's registers, and the model's own record of the host and the interleaving (log 2, 5, 6, 8). -/
structure State where
  /-- The architectural state. -/
  regs : Regs
  /-- The host statements still to be performed (70_reset_and_hazards.md R322). -/
  program : List HostStmt
  /-- Who moves next; when it is empty, CORE moves if BUSY = 1 and HOST otherwise (00_scope.md R13; log 2). -/
  sched : List Turn
  /-- What the host's reads have returned, oldest first (70_reset_and_hazards.md R322). -/
  reads : List Byte
  /-- How many `draw()` values have been given out (00_scope.md R12; log 5). -/
  draws : Nat
  deriving DecidableEq, Repr

/-- The machine has no fault: "The core never traps and never hangs" (00_scope.md R14; log 19). The type is empty, so nothing
can raise one, which is safe: no path of the model stops. -/
inductive Fault where
  deriving DecidableEq, Repr

/-- The machine has no refusal of its own (00_scope.md R14; log 19). -/
inductive Refusal where
  /-- Raised only by an arm of `exec` whose instruction has no meaning yet; no arm is left so. Safe: it stops. -/
  | notModelled (mnemonic : String)
  deriving DecidableEq, Repr

/-- Every register at its value after reset (70_reset_and_hazards.md R300). -/
def Regs.reset : Regs where
  key := Vector.replicate 16 0x00
  state := Vector.replicate 16 0x00
  rk := Vector.replicate 11 (Vector.replicate 16 0x00)
  len := 0x00
  padn := 0x00
  outlen := 0x00
  rksel := 0x00
  gfA := 0x00
  gfB := 0x00
  gfR := 0x00
  dotlen := 0x00
  dota := Vector.replicate 4 0x00
  dotb := Vector.replicate 4 0x00
  busy := false
  done := false
  err := false
  keyv := false
  padv := false
  errcode := 0x00
  pend := none

/-- The machine right after reset: the registers of 70_reset_and_hazards.md R300, and no program, no chosen interleaving,
nothing read (log 6). -/
def State.reset : State where
  regs := Regs.reset
  program := []
  sched := []
  reads := []
  draws := 0

/-- What a bus address names (20_memory.md R61): a register byte, the trigger CMD, the window RKWIN, or nothing. -/
inductive Port where
  | key (k : Fin 16)
  | state (k : Fin 16)
  | cmd
  | status
  | errcode
  | len
  | padn
  | outlen
  | rksel
  | dotlen
  | gfA
  | gfB
  | gfR
  | dota (i : Fin 4)
  | dotb (i : Fin 4)
  | rkwin (k : Fin 16)
  | reserved
  deriving DecidableEq, Repr

end Sys2Proof.Machine
end

