-- ==== Sys2Proof/Machine/Flags.lean ====
section
/-! DEFINITION. The STATUS byte, the code an error records, and the flags a padding check sets (10_state.md R33 to R40,
46_padding.md R244, 60_exceptions.md R271). -/

namespace Sys2Proof.Machine

/-- STATUS as it is read: `000b : PADV : KEYV : ERR : DONE : BUSY` (20_memory.md R65, 10_state.md R33, R39). -/
def statusByte (r : Regs) : Byte :=
  0#3 ++ BitVec.ofBool r.padv ++ BitVec.ofBool r.keyv ++ BitVec.ofBool r.err ++ BitVec.ofBool r.done ++ BitVec.ofBool r.busy

/-- The code ERRCODE records for a cause (60_exceptions.md R271). -/
def errorCode : ErrCode → Byte
  | .illegalCmd => 0x01
  | .noKey => 0x02
  | .badLen => 0x03
  | .badDotlen => 0x04
  | .badRksel => 0x05
  | .busyWrite => 0x06

/-- `SetPadResult(s)`: PADN, PADV and OUTLEN from `checkPad` (46_padding.md R244). -/
def setPadResult (s : Block) (r : Regs) : Regs :=
  let n := checkPad s
  { r with
    padn := BitVec.ofNat 8 n
    padv := n != 0
    outlen := if n != 0 then BitVec.ofNat 8 (16 - n) else 16 }

end Sys2Proof.Machine
end

