-- ==== Sys2Proof/Machine/Field.lean ====
section
/-! DEFINITION. Arithmetic in GF(2^8) with the polynomial 0x11B (41_field_arithmetic.md R130 to R134). -/

namespace Sys2Proof.Machine

/-- `double(a)`: left shift by one, reduced by 0x1B when bit 7 was set (41_field_arithmetic.md R130). -/
def double (a : Byte) : Byte :=
  if a.getLsbD 7 then (a <<< 1) ^^^ 0x1B else a <<< 1

/-- The loop of `multiply`: for each bit position still to visit, the running value p is added when the bit of a is set,
and is doubled (41_field_arithmetic.md R131). -/
def multiplyLoop (a : Byte) : List Nat → Byte → Byte → Byte
  | [], _, r => r
  | i :: rest, p, r => multiplyLoop a rest (double p) (if a.getLsbD i then r ^^^ p else r)

/-- `multiply(a, b)`, bits of a from 0 to 7 (41_field_arithmetic.md R131). -/
def multiply (a b : Byte) : Byte :=
  multiplyLoop a [0, 1, 2, 3, 4, 5, 6, 7] b 0x00

/-- The loop of `dot` over the indices still to visit (41_field_arithmetic.md R132). -/
def dotLoop (a b : Quad) : List (Fin 4) → Byte → Byte
  | [], r => r
  | i :: rest, r => dotLoop a b rest (r ^^^ multiply a[i] b[i])

/-- `dot(a, b, n)` for n at most 4, the only lengths the core lets through (41_field_arithmetic.md R132, R137; log 7). -/
def dot (a b : Quad) (n : Nat) : Byte :=
  dotLoop a b (([0, 1, 2, 3] : List (Fin 4)).take n) 0x00

/-- `inverse(a) = a^254`, computed as the product of the squares a^2, a^4, ..., a^128; 0 for 0 (41_field_arithmetic.md
R134; log 12). No command uses it: it states what the S-box ROM holds (42_sbox.md R150). -/
def inverse (a : Byte) : Byte :=
  let a2 := multiply a a
  let a4 := multiply a2 a2
  let a8 := multiply a4 a4
  let a16 := multiply a8 a8
  let a32 := multiply a16 a16
  let a64 := multiply a32 a32
  let a128 := multiply a64 a64
  multiply a128 (multiply a64 (multiply a32 (multiply a16 (multiply a8 (multiply a4 a2)))))

end Sys2Proof.Machine
end

