-- ==== Sys2Proof/Machine/Transforms.lean ====
section
/-! DEFINITION. The round transforms as functions from a block to a block (44_round_transforms.md R190 to R198). -/

namespace Sys2Proof.Machine

/-- The row of byte k in the 4×4 view: k mod 4 (00_scope.md R11). -/
def rowOf (k : Fin 16) : Fin 4 := ⟨k.val % 4, by omega⟩

/-- The column of byte k: k div 4 (00_scope.md R11). -/
def colOf (k : Fin 16) : Fin 4 := ⟨k.val / 4, by omega⟩

/-- `S(r, c) = STATE[r + 4c]` (00_scope.md R11). -/
def cell (s : Block) (r c : Fin 4) : Byte := s[r.val + 4 * c.val]

/-- The block whose element at row r and column c is `f r c` (00_scope.md R11). -/
def blockOf (f : Fin 4 → Fin 4 → Byte) : Block := Vector.ofFn fun k => f (rowOf k) (colOf k)

/-- Column c, the four bytes 4c to 4c+3 (00_scope.md R11). -/
def column (s : Block) (c : Fin 4) : Quad := Vector.ofFn fun r => cell s r c

/-- `SubBytes` (44_round_transforms.md R190). -/
def subBytes (s : Block) : Block := s.map subByte

/-- `InvSubBytes` (44_round_transforms.md R191). -/
def invSubBytes (s : Block) : Block := s.map invSubByte

/-- `ShiftRows`: row r rotated left by r; the column index is counted mod 4 (44_round_transforms.md R192). -/
def shiftRows (s : Block) : Block := blockOf fun r c => cell s r (c + r)

/-- `InvShiftRows`: row r rotated right by r (44_round_transforms.md R193). -/
def invShiftRows (s : Block) : Block := blockOf fun r c => cell s r (c - r)

/-- `MixColumns`: each output byte is the dot product of a row of MF with its column (44_round_transforms.md R195). -/
def mixColumns (s : Block) : Block := blockOf fun r c => dot mixMatrix[r] (column s c) 4

/-- `InvMixColumns`, with MI (44_round_transforms.md R197). -/
def invMixColumns (s : Block) : Block := blockOf fun r c => dot invMixMatrix[r] (column s c) 4

/-- `AddRoundKey`: bytewise exclusive-or (44_round_transforms.md R198). -/
def addRoundKey (s k : Block) : Block := Vector.zipWith (· ^^^ ·) s k

end Sys2Proof.Machine
end

