-- ==== Sys2Proof/Machine/Cipher.lean ====
section
/-! DEFINITION. The round pipelines of one block, in the eleven stages of 45_cipher.md R220, R221 and R226. -/

namespace Sys2Proof.Machine

/-- Round key i, for i in 0..10 (10_state.md R24); the pipelines ask for no other. -/
def roundKey (rk : RoundKeys) (i : Nat) : Block := rk.getD i (Vector.replicate 16 0x00)

/-- What Encrypt holds after the ShiftRows step of a round, from the stage before it (45_cipher.md R220, R226). -/
def encShifted (s : Block) : Block := shiftRows (subBytes s)

/-- `enc_stage[i]`: stage 0 adds RK[0]; stages 1 to 9 are full rounds; stage 10 leaves MixColumns out (45_cipher.md R220,
R226). -/
def encStage (s : Block) (rk : RoundKeys) : Nat → Block
  | 0 => addRoundKey s (roundKey rk 0)
  | i + 1 =>
    let t := encShifted (encStage s rk i)
    addRoundKey (if i + 1 < 10 then mixColumns t else t) (roundKey rk (i + 1))

/-- `Encrypt(s, RK)` (45_cipher.md R220). -/
def encrypt (s : Block) (rk : RoundKeys) : Block := encStage s rk 10

/-- `dec_stage[10 - n]`, n stages after the first: stage 10 adds RK[10]; stages 9 to 1 end in InvMixColumns; stage 0 does not
(45_cipher.md R221, R226). -/
def decStage (s : Block) (rk : RoundKeys) : Nat → Block
  | 0 => addRoundKey s (roundKey rk 10)
  | n + 1 =>
    let t := addRoundKey (invSubBytes (invShiftRows (decStage s rk n))) (roundKey rk (10 - (n + 1)))
    if n + 1 < 10 then invMixColumns t else t

/-- `Decrypt(s, RK)` (45_cipher.md R221). -/
def decrypt (s : Block) (rk : RoundKeys) : Block := decStage s rk 10

end Sys2Proof.Machine
end

