-- ==== Sys2Proof/Machine/Operands.lean ====
section
/-! DEFINITION. The operands a command takes from registers (30_encoding.md R93) and the checks made on them when it is
issued (40_command_lifecycle.md R112, 60_exceptions.md R273). -/

namespace Sys2Proof.Machine

/-- The round key RKSEL selects, all 0x00 when RKSEL > 10: what RKWIN shows (10_state.md R42) and, for RKSEL in 0..10, what
ADDRK adds (44_round_transforms.md R203). -/
def selectedRoundKey (r : Regs) : Block :=
  if r.rksel.toNat ≤ 10 then roundKey r.rk r.rksel.toNat else Vector.replicate 16 0x00

/-- The check of a keyed command: KEYV = 0 is NO_KEY (40_command_lifecycle.md R112). -/
def needKey (r : Regs) : Option ErrCode := if r.keyv then none else some .noKey

/-- LEN above a bound is BAD_LEN (40_command_lifecycle.md R112). -/
def lenAtMost (bound : Nat) (r : Regs) : Option ErrCode := if bound < r.len.toNat then some .badLen else none

/-- DOTLEN > 4 is BAD_DOTLEN (40_command_lifecycle.md R112). -/
def dotlenAtMost4 (r : Regs) : Option ErrCode := if 4 < r.dotlen.toNat then some .badDotlen else none

/-- RKSEL > 10 is BAD_RKSEL (40_command_lifecycle.md R112). -/
def rkselAtMost10 (r : Regs) : Option ErrCode := if 10 < r.rksel.toNat then some .badRksel else none

/-- The first check that fails, in the order listed (40_command_lifecycle.md R112, 60_exceptions.md R274). -/
def firstFailing : List (Regs → Option ErrCode) → Regs → Option ErrCode
  | [], _ => none
  | check :: rest, r =>
    match check r with
    | some c => some c
    | none => firstFailing rest r

/-- The checks each command makes, in order (40_command_lifecycle.md R112; the table of 60_exceptions.md R273). -/
def checksOf : Instr → List (Regs → Option ErrCode)
  | .nop => []
  | .keyexp => []
  | .keyclr => []
  | .enc => [needKey]
  | .dec => [needKey]
  | .encf => [needKey, lenAtMost 15]
  | .decf => [needKey]
  | .pad => [lenAtMost 16]
  | .chkpad => []
  | .gfmul => []
  | .xtime => []
  | .dot => [dotlenAtMost4]
  | .sbox => []
  | .isbox => []
  | .subbytes => []
  | .shiftrows => []
  | .mixcol => []
  | .addrk => [needKey, rkselAtMost10]
  | .invsubbytes => []
  | .invshiftrows => []
  | .invmixcol => []

/-- `CheckPreconditions(v)` (40_command_lifecycle.md R112). -/
def checkPreconditions (i : Instr) (r : Regs) : Option ErrCode := firstFailing (checksOf i) r

end Sys2Proof.Machine
end

