-- ==== Sys2Proof/Machine/RegisterMap.lean ====
section
/-! DEFINITION. The register map (20_memory.md R61 to R64) and the addresses a pending command owns
(40_command_lifecycle.md R117). -/

namespace Sys2Proof.Machine

/-- What an address names (20_memory.md R61, R62). -/
def portOf (a : Byte) : Port :=
  let n := a.toNat
  if n < 0x10 then .key ⟨n % 16, by omega⟩
  else if n < 0x20 then .state ⟨n % 16, by omega⟩
  else if n = 0x20 then .cmd
  else if n = 0x21 then .status
  else if n = 0x22 then .errcode
  else if n = 0x23 then .len
  else if n = 0x24 then .padn
  else if n = 0x25 then .outlen
  else if n = 0x26 then .rksel
  else if n = 0x27 then .dotlen
  else if n = 0x28 then .gfA
  else if n = 0x29 then .gfB
  else if n = 0x2A then .gfR
  else if n < 0x30 then .reserved
  else if n < 0x34 then .dota ⟨n % 4, by omega⟩
  else if n < 0x38 then .dotb ⟨n % 4, by omega⟩
  else if n < 0x40 then .reserved
  else if n < 0x50 then .rkwin ⟨n % 16, by omega⟩
  else .reserved

/-- The host-writable set WSET (20_memory.md R64). -/
def hostWritable : Port → Bool
  | .key _ => true
  | .state _ => true
  | .cmd => true
  | .status => false
  | .errcode => false
  | .len => true
  | .padn => false
  | .outlen => false
  | .rksel => true
  | .dotlen => true
  | .gfA => true
  | .gfB => true
  | .gfR => false
  | .dota _ => true
  | .dotb _ => true
  | .rkwin _ => false
  | .reserved => false

/-- The addresses of STATE. -/
def isState : Port → Bool
  | .state _ => true
  | _ => false

/-- The addresses of KEY. -/
def isKey : Port → Bool
  | .key _ => true
  | _ => false

/-- The addresses of the window RKWIN. -/
def isRkwin : Port → Bool
  | .rkwin _ => true
  | _ => false

/-- The addresses of PADN and OUTLEN. -/
def isPadResult (p : Port) : Bool := p == .padn || p == .outlen

/-- `ReadSet(op)`: what shows a register of the command's write set (40_command_lifecycle.md R117). -/
def readSet : Instr → Port → Bool
  | .nop, _ => false
  | .keyexp, p => isRkwin p
  | .keyclr, p => isKey p || isRkwin p
  | .enc, p => isState p
  | .dec, p => isState p
  | .encf, p => isState p
  | .decf, p => isState p || isPadResult p
  | .pad, p => isState p
  | .chkpad, p => isPadResult p
  | .gfmul, p => p == .gfR
  | .xtime, p => p == .gfR
  | .dot, p => p == .gfR
  | .sbox, p => p == .gfR
  | .isbox, p => p == .gfR
  | .subbytes, p => isState p
  | .shiftrows, p => isState p
  | .mixcol, p => isState p
  | .addrk, p => isState p
  | .invsubbytes, p => isState p
  | .invshiftrows, p => isState p
  | .invmixcol, p => isState p

/-- BUSY = 1 and the address is in ReadSet(PEND) (20_memory.md R65, 70_reset_and_hazards.md R312). DESIGN CHOICE (log 4): the spec gives no
ReadSet(none), so with BUSY = 1 and PEND = none, which no run reaches (10_state.md R47), no address is owned and every read is exact. -/
def pendingOwns (r : Regs) (p : Port) : Bool :=
  r.busy && match r.pend with
    | some i => readSet i p
    | none => false

end Sys2Proof.Machine
end

