-- ==== Sys2Proof/Machine/Ops.lean ====
section
/-! DEFINITION. The operations every command and transaction is made of: reading and writing a register address, raising and
clearing an error, and the lifecycle of a command (20_memory.md R65 to R68, 40_command_lifecycle.md R110 to R118,
60_exceptions.md R272). -/

namespace Sys2Proof.Machine

/-- The registers of a state replaced. -/
def State.setRegs (s : State) (r : Regs) : State := { s with regs := r }

/-- `raise Error(code)`: the core's only exception entry, which saves nothing and jumps nowhere (60_exceptions.md R270,
R272). -/
def raiseError (c : ErrCode) (r : Regs) : Regs := { r with err := true, errcode := errorCode c }

/-- `StatusWrite(v)`: bit 1 clears DONE, bit 2 clears ERR and ERRCODE, which stands in for a return from an exception
(20_memory.md R68, 60_exceptions.md R277). -/
def statusWrite (v : Byte) (r : Regs) : Regs :=
  { r with
    done := r.done && !v.getLsbD 1
    err := r.err && !v.getLsbD 2
    errcode := if v.getLsbD 2 then 0x00 else r.errcode }

/-- The current value of a register address (20_memory.md R65, before the line on ReadSet). -/
def peek (r : Regs) : Port → Byte
  | .key k => r.key[k]
  | .state k => r.state[k]
  | .cmd => 0x00
  | .status => statusByte r
  | .errcode => r.errcode
  | .len => r.len
  | .padn => r.padn
  | .outlen => r.outlen
  | .rksel => r.rksel
  | .dotlen => r.dotlen
  | .gfA => r.gfA
  | .gfB => r.gfB
  | .gfR => r.gfR
  | .dota i => r.dota[i]
  | .dotb i => r.dotb[i]
  | .rkwin k => (selectedRoundKey r)[k]
  | .reserved => 0x00

/-- A byte stored by the host; a KEY byte also clears KEYV (20_memory.md R66, R67). Addresses that store nothing leave the
registers alone. -/
def poke (r : Regs) (v : Byte) : Port → Regs
  | .key k => { r with key := r.key.set k v, keyv := false }
  | .state k => { r with state := r.state.set k v }
  | .cmd => r
  | .status => r
  | .errcode => r
  | .len => { r with len := v }
  | .padn => r
  | .outlen => r
  | .rksel => { r with rksel := v }
  | .dotlen => { r with dotlen := v }
  | .gfA => { r with gfA := v }
  | .gfB => { r with gfB := v }
  | .gfR => r
  | .dota i => { r with dota := r.dota.set i v }
  | .dotb i => { r with dotb := r.dotb.set i v }
  | .rkwin _ => r
  | .reserved => r

/-- `BusRead(a)`: the current value, or a fresh `draw()` when a pending command owns the address; no register changes
(20_memory.md R65, 70_reset_and_hazards.md R312). -/
def busRead (a : Byte) (s : State) : Byte × State :=
  if pendingOwns s.regs (portOf a) then (Config.draw s.draws, { s with draws := s.draws + 1 })
  else (peek s.regs (portOf a), s)

/-- DONE <- 0, the first act of every IssueCommand (40_command_lifecycle.md R111). -/
def clearDone (r : Regs) : Regs := { r with done := false }

/-- A command turned away: DONE <- 0, ERR <- 1, ERRCODE <- code (40_command_lifecycle.md R118). -/
def reject (c : ErrCode) (r : Regs) : Regs := raiseError c (clearDone r)

/-- `Accept(v)` after DONE <- 0 (40_command_lifecycle.md R111, R113). -/
def accept (i : Instr) (r : Regs) : Regs := { clearDone r with busy := true, pend := some i }

/-- What IssueCommand does with a legal opcode: check, then accept or reject (40_command_lifecycle.md R110). -/
def issue (i : Instr) (r : Regs) : Regs :=
  match checkPreconditions i r with
  | some c => reject c r
  | none => accept i r

/-- What a CORE step does after Perform: BUSY <- 0, DONE <- 1, PEND <- none (40_command_lifecycle.md R114). -/
def complete (r : Regs) : Regs := { r with busy := false, done := true, pend := none }

/-- The life of a command: while BUSY = 0 its CMD write issues it (40_command_lifecycle.md R110), while BUSY = 1 the CORE step
performs it whole (R114). A CMD write while BUSY = 1 never comes here (20_memory.md R66; log 1). -/
def command (i : Instr) (perform : Regs → Regs) (s : State) : Host.Outcome State Fault Refusal :=
  if s.regs.busy then .next (s.setRegs (complete (perform s.regs)))
  else .next (s.setRegs (issue i s.regs))

end Sys2Proof.Machine
end

