-- ==== Sys2Proof/Machine/ByteLookup.lean ====
section
/-! DEFINITION. The byte lookups SBOX and ISBOX (42_sbox.md R155, R156). -/

namespace Sys2Proof.Machine

/-- `GF_R <- SBOX[GF_A]` (42_sbox.md R155). -/
def performSbox (r : Regs) : Regs := { r with gfR := subByte r.gfA }

/-- SBOX (42_sbox.md R155). -/
def execSbox (s : State) : Host.Outcome State Fault Refusal := command .sbox performSbox s

/-- `GF_R <- INVSBOX[GF_A]` (42_sbox.md R156). -/
def performIsbox (r : Regs) : Regs := { r with gfR := invSubByte r.gfA }

/-- ISBOX (42_sbox.md R156). -/
def execIsbox (s : State) : Host.Outcome State Fault Refusal := command .isbox performIsbox s

end Sys2Proof.Machine
end

