-- ==== Sys2Proof/Machine/CipherUnit.lean ====
section
/-! DEFINITION. The round pipeline's commands ENC and DEC (45_cipher.md R222, R223). -/

namespace Sys2Proof.Machine

/-- `STATE <- Encrypt(STATE, RK)` (45_cipher.md R222). -/
def performEnc (r : Regs) : Regs := { r with state := encrypt r.state r.rk }

/-- ENC (45_cipher.md R222). -/
def execEnc (s : State) : Host.Outcome State Fault Refusal := command .enc performEnc s

/-- `STATE <- Decrypt(STATE, RK)` (45_cipher.md R223). -/
def performDec (r : Regs) : Regs := { r with state := decrypt r.state r.rk }

/-- DEC (45_cipher.md R223). -/
def execDec (s : State) : Host.Outcome State Fault Refusal := command .dec performDec s

end Sys2Proof.Machine
end

