-- ==== Sys2Proof/Machine/Control.lean ====
section
/-! DEFINITION. NOP (40_command_lifecycle.md R119). -/

namespace Sys2Proof.Machine

/-- `Perform(NOP): skip` (40_command_lifecycle.md R119). -/
def performNop (r : Regs) : Regs := r

/-- NOP (40_command_lifecycle.md R119). -/
def execNop (s : State) : Host.Outcome State Fault Refusal := command .nop performNop s

end Sys2Proof.Machine
end

