-- ==== Sys2Proof/Machine/FieldUnit.lean ====
section
/-! DEFINITION. The field multiplier's commands XTIME, GFMUL and DOT (41_field_arithmetic.md R135 to R137). -/

namespace Sys2Proof.Machine

/-- `GF_R <- multiply(GF_A, GF_B)` (41_field_arithmetic.md R136). -/
def performGfmul (r : Regs) : Regs := { r with gfR := multiply r.gfA r.gfB }

/-- GFMUL (41_field_arithmetic.md R136). -/
def execGfmul (s : State) : Host.Outcome State Fault Refusal := command .gfmul performGfmul s

/-- `GF_R <- double(GF_A)` (41_field_arithmetic.md R135). -/
def performXtime (r : Regs) : Regs := { r with gfR := double r.gfA }

/-- XTIME (41_field_arithmetic.md R135). -/
def execXtime (s : State) : Host.Outcome State Fault Refusal := command .xtime performXtime s

/-- `GF_R <- dot(DOTA, DOTB, DOTLEN)` (41_field_arithmetic.md R137). -/
def performDot (r : Regs) : Regs := { r with gfR := dot r.dota r.dotb r.dotlen.toNat }

/-- DOT (41_field_arithmetic.md R137). -/
def execDot (s : State) : Host.Outcome State Fault Refusal := command .dot performDot s

end Sys2Proof.Machine
end

