-- ==== Sys2Proof/Machine/Expand.lean ====
section
/-! DEFINITION. The key expansion (43_key_schedule.md R170 to R175). -/

namespace Sys2Proof.Machine

/-- `RotWord`: the bytes rotated left by one (43_key_schedule.md R172). -/
def rotWord (t : Quad) : Quad := #v[t[1], t[2], t[3], t[0]]

/-- `SubWord`: each byte through the S-box (43_key_schedule.md R173). -/
def subWord (t : Quad) : Quad := t.map subByte

/-- Bytewise exclusive-or of two words (43_key_schedule.md R174). -/
def xorWord (a b : Quad) : Quad := Vector.zipWith (· ^^^ ·) a b

/-- The word that starts a round, before it is added to the word four positions earlier: rotate, substitute, add the round
constant to byte 0 (43_key_schedule.md R174). -/
def startWord (rc : Byte) (t : Quad) : Quad :=
  let u := subWord (rotWord t)
  u.set 0 (u[0] ^^^ rc)

/-- The next round key: its four words from the four words of the round key before it (43_key_schedule.md R174, R175;
log 21). -/
def nextRoundKey (rc : Byte) (k : Block) : Block :=
  let w0 := xorWord (startWord rc (column k 3)) (column k 0)
  let w1 := xorWord w0 (column k 1)
  let w2 := xorWord w1 (column k 2)
  let w3 := xorWord w2 (column k 3)
  let words : Vector Quad 4 := #v[w0, w1, w2, w3]
  blockOf fun r c => words[c][r]

/-- Round key j of a key: round 0 is the key itself, round j uses RCON[j] (43_key_schedule.md R171, R175). -/
def roundKeyAt (key : Block) : Nat → Block
  | 0 => key
  | j + 1 => nextRoundKey (rcon (j + 1)) (roundKeyAt key j)

/-- `Expand(K)`, the eleven round keys (43_key_schedule.md R174). -/
def expand (key : Block) : RoundKeys := Vector.ofFn fun j => roundKeyAt key j.val

/-- Word i of the expansion, `w[i]` of 43_key_schedule.md R174: column i mod 4 of round key i div 4 (R175). -/
def expandedWord (key : Block) (i : Nat) : Quad := column (roundKeyAt key (i / 4)) ⟨i % 4, by omega⟩

end Sys2Proof.Machine
end

