-- ==== Sys2Proof/Machine/KeyUnit.lean ====
section
/-! DEFINITION. The key commands KEYEXP and KEYCLR (43_key_schedule.md R176, R178). -/

namespace Sys2Proof.Machine

/-- RK <- Expand(KEY), KEYV <- 1 (43_key_schedule.md R176). -/
def performKeyexp (r : Regs) : Regs := { r with rk := expand r.key, keyv := true }

/-- KEYEXP (43_key_schedule.md R176). -/
def execKeyexp (s : State) : Host.Outcome State Fault Refusal := command .keyexp performKeyexp s

/-- KEY and RK zeroed, KEYV <- 0 (43_key_schedule.md R178). -/
def performKeyclr (r : Regs) : Regs :=
  { r with
    key := Vector.replicate 16 0x00
    rk := Vector.replicate 11 (Vector.replicate 16 0x00)
    keyv := false }

/-- KEYCLR (43_key_schedule.md R178). -/
def execKeyclr (s : State) : Host.Outcome State Fault Refusal := command .keyclr performKeyclr s

end Sys2Proof.Machine
end

