-- ==== Sys2Proof/Machine/PadUnit.lean ====
section
/-! DEFINITION. The padding controller's commands PAD, CHKPAD, ENCF and DECF (46_padding.md R242, R243, R245, R246). -/

namespace Sys2Proof.Machine

/-- `STATE <- pad(STATE, LEN)` (46_padding.md R242). -/
def performPad (r : Regs) : Regs := { r with state := padBlock r.state r.len.toNat }

/-- PAD (46_padding.md R242). -/
def execPad (s : State) : Host.Outcome State Fault Refusal := command .pad performPad s

/-- `SetPadResult(STATE)` (46_padding.md R243). -/
def performChkpad (r : Regs) : Regs := setPadResult r.state r

/-- CHKPAD (46_padding.md R243). -/
def execChkpad (s : State) : Host.Outcome State Fault Refusal := command .chkpad performChkpad s

/-- `STATE <- Encrypt(pad(STATE, LEN), RK)` (46_padding.md R245). -/
def performEncf (r : Regs) : Regs := { r with state := encrypt (padBlock r.state r.len.toNat) r.rk }

/-- ENCF (46_padding.md R245). -/
def execEncf (s : State) : Host.Outcome State Fault Refusal := command .encf performEncf s

/-- `STATE <- p; SetPadResult(p)` with p = Decrypt(STATE, RK) (46_padding.md R246). -/
def performDecf (r : Regs) : Regs :=
  let p := decrypt r.state r.rk
  setPadResult p { r with state := p }

/-- DECF (46_padding.md R246). -/
def execDecf (s : State) : Host.Outcome State Fault Refusal := command .decf performDecf s

end Sys2Proof.Machine
end

