-- ==== Sys2Proof/Machine/TransformUnit.lean ====
section
/-! DEFINITION. The single round transforms as commands on STATE (44_round_transforms.md R200 to R206). -/

namespace Sys2Proof.Machine

/-- A command that replaces STATE by a function of the old STATE, read whole before it is written
(44_round_transforms.md section 2, 70_reset_and_hazards.md R311). -/
def replaceState (f : Block → Block) (r : Regs) : Regs := { r with state := f r.state }

/-- SUBBYTES (44_round_transforms.md R200). -/
def execSubbytes (s : State) : Host.Outcome State Fault Refusal := command .subbytes (replaceState subBytes) s

/-- SHIFTROWS (44_round_transforms.md R201). -/
def execShiftrows (s : State) : Host.Outcome State Fault Refusal := command .shiftrows (replaceState shiftRows) s

/-- MIXCOL (44_round_transforms.md R202). -/
def execMixcol (s : State) : Host.Outcome State Fault Refusal := command .mixcol (replaceState mixColumns) s

/-- `STATE <- AddRoundKey(STATE, RK[RKSEL])` (44_round_transforms.md R203; log 7). -/
def performAddrk (r : Regs) : Regs := replaceState (fun b => addRoundKey b (selectedRoundKey r)) r

/-- ADDRK (44_round_transforms.md R203). -/
def execAddrk (s : State) : Host.Outcome State Fault Refusal := command .addrk performAddrk s

/-- INVSUBBYTES (44_round_transforms.md R204). -/
def execInvsubbytes (s : State) : Host.Outcome State Fault Refusal := command .invsubbytes (replaceState invSubBytes) s

/-- INVSHIFTROWS (44_round_transforms.md R205). -/
def execInvshiftrows (s : State) : Host.Outcome State Fault Refusal := command .invshiftrows (replaceState invShiftRows) s

/-- INVMIXCOL (44_round_transforms.md R206). -/
def execInvmixcol (s : State) : Host.Outcome State Fault Refusal := command .invmixcol (replaceState invMixColumns) s

end Sys2Proof.Machine
end

