-- ==== Sys2Proof/Machine/Dispatch.lean ====
section
/-! DEFINITION. The one match over the commands (40_command_lifecycle.md R115). -/

namespace Sys2Proof.Machine

/-- The meaning of a command: its issue while BUSY = 0, its completion while BUSY = 1 (log 1). -/
def exec (i : Instr) (s : State) : Host.Outcome State Fault Refusal :=
  match i with
  | .nop => Sys2Proof.Machine.execNop s
  | .keyexp => Sys2Proof.Machine.execKeyexp s
  | .keyclr => Sys2Proof.Machine.execKeyclr s
  | .enc => Sys2Proof.Machine.execEnc s
  | .dec => Sys2Proof.Machine.execDec s
  | .encf => Sys2Proof.Machine.execEncf s
  | .decf => Sys2Proof.Machine.execDecf s
  | .pad => Sys2Proof.Machine.execPad s
  | .chkpad => Sys2Proof.Machine.execChkpad s
  | .gfmul => Sys2Proof.Machine.execGfmul s
  | .xtime => Sys2Proof.Machine.execXtime s
  | .dot => Sys2Proof.Machine.execDot s
  | .sbox => Sys2Proof.Machine.execSbox s
  | .isbox => Sys2Proof.Machine.execIsbox s
  | .subbytes => Sys2Proof.Machine.execSubbytes s
  | .shiftrows => Sys2Proof.Machine.execShiftrows s
  | .mixcol => Sys2Proof.Machine.execMixcol s
  | .addrk => Sys2Proof.Machine.execAddrk s
  | .invsubbytes => Sys2Proof.Machine.execInvsubbytes s
  | .invshiftrows => Sys2Proof.Machine.execInvshiftrows s
  | .invmixcol => Sys2Proof.Machine.execInvmixcol s

end Sys2Proof.Machine
end

