-- ==== Sys2Proof/Machine/Bus.lean ====
section
/-! DEFINITION. The steps of the agents: a bus write, the issue of a command, the CORE step, a host statement, a turn
(20_memory.md R66, 40_command_lifecycle.md R110, R114, 00_scope.md R13). -/

namespace Sys2Proof.Machine

/-- `IssueCommand(v)`: an illegal byte is rejected with ILLEGAL_CMD, a legal one is issued by its meaning
(40_command_lifecycle.md R110, 30_encoding.md R94). Called only while BUSY = 0. -/
def issueCommand (v : Byte) (s : State) : Host.Outcome State Fault Refusal :=
  match decode v with
  | .ok i => exec i s
  | .error c => .next (s.setRegs (reject c s.regs))

/-- `BusWrite(a, v)` (20_memory.md R66): STATUS at any time; nothing outside WSET; BUSY_WRITE while BUSY = 1; else the byte is
stored or the command issued. -/
def busWrite (a v : Byte) (s : State) : Host.Outcome State Fault Refusal :=
  let p := portOf a
  if p = .status then .next (s.setRegs (statusWrite v s.regs))
  else if !hostWritable p then .next s
  else if s.regs.busy then .next (s.setRegs (raiseError .busyWrite s.regs))
  else if p = .cmd then issueCommand v s
  else .next (s.setRegs (poke s.regs v p))

/-- The CORE step, enabled exactly while BUSY = 1: it performs the pending command whole (40_command_lifecycle.md R114). A turn of
CORE while BUSY = 0 does nothing (log 3). BUSY = 1 with nothing pending, which no run reaches (10_state.md R47), completes without
an effect (log 4). -/
def coreStep (s : State) : Host.Outcome State Fault Refusal :=
  if s.regs.busy then
    match s.regs.pend with
    | some i => exec i s
    | none => .next (s.setRegs (complete s.regs))
  else .next s

/-- A read by the host: the value goes to the end of the list of values read (70_reset_and_hazards.md R322). -/
def hostRead (a : Byte) (s : State) : Byte × State :=
  let (v, t) := busRead a s
  (v, { t with reads := t.reads ++ [v] })

/-- One HOST step: the first statement of the program, `rest` being what follows it (30_encoding.md R96). POLL reads STATUS once a
step and stays first until the value read has bit 0 = 0 (R97). -/
def hostStep (stmt : HostStmt) (rest : List HostStmt) (s : State) : Host.Outcome State Fault Refusal :=
  match stmt with
  | .bus (.wr a d) => busWrite a d { s with program := rest }
  | .bus (.rd a) => .next { (hostRead a s).2 with program := rest }
  | .poll =>
    let (v, t) := hostRead 0x21 s
    if v.getLsbD 0 then .next t else .next { t with program := rest }

/-- The turn of an agent; HOST without a statement left does nothing (00_scope.md R13; log 3), RESET sets every register
(70_reset_and_hazards.md R300, R301; log 16). -/
def takeTurn (t : Turn) (s : State) : Host.Outcome State Fault Refusal :=
  match t with
  | .reset => .next (s.setRegs Regs.reset)
  | .core => coreStep s
  | .host =>
    match s.program with
    | [] => .next s
    | stmt :: rest => hostStep stmt rest s

/-- Who moves when `sched` names nobody: CORE while BUSY = 1, which is its weak fairness, else HOST (70_reset_and_hazards.md
R321; log 2). -/
def defaultTurn (r : Regs) : Turn := if r.busy then .core else .host

/-- Who moves at this step: the first of `sched`, or the default (00_scope.md R13; log 2). -/
def turnOf (s : State) : Turn :=
  match s.sched with
  | t :: _ => t
  | [] => defaultTurn s.regs

/-- One step of the run: the turn of the agent that moves next (00_scope.md R13). -/
def nextTurn (s : State) : Host.Outcome State Fault Refusal := takeTurn (turnOf s) { s with sched := s.sched.tail }

/-- A command byte brought before the core: the host's next move is `WR CMD, v`, and no command is pending, since a CMD write while
BUSY = 1 is dropped before it is decoded (20_memory.md R66; log 9). -/
def bringCommand (s : State) (v : Byte) : State :=
  { s with
    regs := { s.regs with busy := false, pend := none }
    program := .bus (.wr 0x20 v) :: s.program
    sched := .host :: s.sched }

end Sys2Proof.Machine
end

