-- ==== Sys2Proof/Machine/Step.lean ====
section
/-! DEFINITION. One step of the machine, and a command laid where the next step takes it from. -/

namespace Sys2Proof.Machine

/-- One step: one turn of one agent (00_scope.md R13). -/
def step (s : State) : Host.Outcome State Fault Refusal := nextTurn s

/-- The core fetches nothing (10_state.md R21): a command is carried by the value of its CMD write (20_memory.md R80), so the byte is
laid in the host's next move, and the very next step writes it to CMD, decodes it and runs its meaning (log 8, log 9). Every command
is one byte (30_encoding.md R91), so `nbits` is 8. -/
def State.withFetchWord (s : State) (_nbits w : Nat) : State := bringCommand s (BitVec.ofNat 8 w)

end Sys2Proof.Machine
end

