-- ==== Sys2Proof/Machine/HostProgram.lean ====
section
/-! DEFINITION. Host programs: the pseudo-statements of 30_encoding.md R97 and the block protocols of 46_padding.md R247 and
R248 (log 18). -/

namespace Sys2Proof.Machine

/-- A block written as 32 hexadecimal digits, byte 0 first (00_scope.md R10). -/
def hexBlock (digits : Nat) : Block := Vector.ofFn fun k => BitVec.ofNat 8 (digits >>> (8 * (15 - k.val)))

/-- `WR a, d` (30_encoding.md R96). -/
def wr (a d : Byte) : HostStmt := .bus (.wr a d)

/-- `RD a` (30_encoding.md R96). -/
def rd (a : Byte) : HostStmt := .bus (.rd a)

/-- `CMD m` (30_encoding.md R97). -/
def cmdStmt (i : Instr) : List HostStmt := [wr 0x20 (encode i)]

/-- `RUN m`: `CMD m` then POLL (30_encoding.md R97). -/
def runStmt (i : Instr) : List HostStmt := cmdStmt i ++ [.poll]

/-- Writes of consecutive bytes from an address on, in order. -/
def writeBytes (base : Byte) (bytes : List Byte) : List HostStmt :=
  (List.range bytes.length).map fun k => wr (base + BitVec.ofNat 8 k) (bytes.getD k 0x00)

/-- `LDKEY` (30_encoding.md R97). -/
def ldkey (k : Block) : List HostStmt := writeBytes 0x00 k.toList

/-- `LDSTATE` (30_encoding.md R97). -/
def ldstate (b : Block) : List HostStmt := writeBytes 0x10 b.toList

/-- `RDSTATE` (30_encoding.md R97). -/
def rdstate : List HostStmt := (List.range 16).map fun k => rd (0x10 + BitVec.ofNat 8 k)

/-- `CLRERR` (30_encoding.md R97). -/
def clrerr : List HostStmt := [wr 0x21 0x04]

/-- `CLRDONE` (30_encoding.md R97). -/
def clrdone : List HostStmt := [wr 0x21 0x02]

/-- Chunk k of a byte stream, in stream order; the positions past its end, which the padding overwrites, hold 0x00
(46_padding.md R247). -/
def chunk (bytes : List Byte) (k : Nat) : Block := Vector.ofFn fun i => bytes.getD (16 * k + i.val) 0x00

/-- The ciphertext blocks of a byte stream under given round keys (46_padding.md R247). -/
def encryptStream (rk : RoundKeys) (bytes : List Byte) : List Block :=
  (List.range (bytes.length / 16)).map (fun k => encrypt (chunk bytes k) rk) ++
    [encrypt (padBlock (chunk bytes (bytes.length / 16)) (bytes.length % 16)) rk]

/-- The bytes the host emits for ciphertext blocks, the last one cut to OUTLEN (46_padding.md R248, R244). -/
def decryptStream (rk : RoundKeys) : List Block → List Byte
  | [] => []
  | [b] =>
    let p := decrypt b rk
    p.toList.take (16 - checkPad p)
  | b :: next :: rest => (decrypt b rk).toList ++ decryptStream rk (next :: rest)

/-- The host program that encrypts a byte stream in a session (46_padding.md R247). -/
def encryptProgram (bytes : List Byte) : List HostStmt :=
  let q := bytes.length / 16
  ((List.range q).map fun k => ldstate (chunk bytes k) ++ runStmt .enc ++ rdstate).flatten ++
    writeBytes 0x10 (bytes.drop (16 * q)) ++ [wr 0x23 (BitVec.ofNat 8 (bytes.length % 16))] ++ runStmt .encf ++ rdstate

/-- The host program that decrypts n ≥ 1 blocks: DEC for all but the last, DECF for the last, whose OUTLEN it then reads
(46_padding.md R248). -/
def decryptProgram : List Block → List HostStmt
  | [] => []
  | [b] => ldstate b ++ runStmt .decf ++ rdstate ++ [rd 0x24, rd 0x25, rd 0x21]
  | b :: next :: rest => ldstate b ++ runStmt .dec ++ rdstate ++ decryptProgram (next :: rest)

end Sys2Proof.Machine
end

