-- ==== Sys2Proof/Safety.lean ====
section
/-! DEFINITION. What claims about the machine are made of: the invariants of 10_state.md R47, the end of a run
(70_reset_and_hazards.md R322), and the shape of a command's rule. -/

namespace Sys2Proof.Machine

/-- 10_state.md R47 (i): BUSY = 1 exactly when PEND ≠ none. -/
abbrev BusyIffPending (r : Regs) : Prop := r.busy = r.pend.isSome

/-- 10_state.md R47 (ii), R37: KEYV = 1 implies RK = Expand(KEY). -/
abbrev RoundKeysFresh (r : Regs) : Prop := r.keyv = true → r.rk = expand r.key

/-- 10_state.md R47 (iii), R38: PADV = 1 exactly when PADN is in 1..16. -/
abbrev PadFlagAgrees (r : Regs) : Prop := r.padv = true ↔ 1 ≤ r.padn.toNat ∧ r.padn.toNat ≤ 16

/-- 10_state.md R47 (iv): PADN ≤ 16. -/
abbrev PadnBounded (r : Regs) : Prop := r.padn.toNat ≤ 16

/-- 10_state.md R47 (v): OUTLEN = 16 - PADN if PADV = 1, and 16 if PADV = 0. -/
abbrev OutlenAgrees (r : Regs) : Prop := r.outlen.toNat = if r.padv then 16 - r.padn.toNat else 16

/-- OUTLEN as R47 (v) says, or still as reset left it. -/
abbrev OutlenAgreesOrReset (r : Regs) : Prop := OutlenAgrees r ∨ (r.outlen = 0 ∧ r.padn = 0 ∧ r.padv = false)

/-- 10_state.md R47 (vi): ERR = 0 implies ERRCODE = 0x00, and ERR = 1 implies ERRCODE in 0x01..0x06. -/
abbrev ErrorRecorded (r : Regs) : Prop :=
  (r.err = false → r.errcode = 0) ∧ (r.err = true → 1 ≤ r.errcode.toNat ∧ r.errcode.toNat ≤ 6)

/-- 10_state.md R47 (vii): STATUS[7:5] = 0. -/
abbrev ReservedBitsZero (r : Regs) : Prop := (statusByte r).extractLsb' 5 3 = 0

/-- The state invariants of 10_state.md R47, (v) in the form that holds from reset on. -/
abbrev StateInvariants (r : Regs) : Prop :=
  BusyIffPending r ∧ RoundKeysFresh r ∧ PadFlagAgrees r ∧ PadnBounded r ∧ OutlenAgreesOrReset r ∧ ErrorRecorded r ∧
    ReservedBitsZero r

/-- While BUSY = 1, DONE = 0 (40_command_lifecycle.md R117). -/
abbrev DoneClearWhileBusy (r : Regs) : Prop := r.busy = true → r.done = false

/-- The pending command passes its checks with the registers as they are now (40_command_lifecycle.md R115, R116). -/
abbrev PendingChecked (r : Regs) : Prop := r.pend.bind (fun i => checkPreconditions i r) = none

/-- A run has ended: the last statement is performed and BUSY = 0 (70_reset_and_hazards.md R322). DESIGN CHOICE (log 23): R322 speaks of HOST
and CORE steps only; with a turn left in `sched`, such as a RESET, the model counts the run as not over. -/
abbrev RunEnded (s : State) : Prop := s.program = [] ∧ s.sched = [] ∧ s.regs.busy = false

/-- A number of steps within which a run ends: a turn of `sched` each, a write and its CORE step for each statement, and one for
a command already pending. -/
def stepsToEnd (s : State) : Nat := s.sched.length + 2 * s.program.length + 1

/-- What the CMD write of a command leaves while BUSY = 0: accepted (40_command_lifecycle.md R111, R113), or turned away with the
code of an error (R118). -/
def afterIssue (i : Instr) (error : Option Byte) (r : Regs) : Regs :=
  match error with
  | none => { r with done := false, busy := true, pend := some i }
  | some c => { r with done := false, err := true, errcode := c }

/-- A command's rule as a whole: its opcode; its effect at the CORE step, with BUSY <- 0, DONE <- 1 and PEND <- none beside it
(40_command_lifecycle.md R114), for registers that pass its checks, as those of a pending command do (R115, R116); what its CMD write
does while BUSY = 0, `errorIf` giving the code of the error that turns it away (R110, R111, R113, R118); and that a CMD write of it
while BUSY = 1 is dropped with BUSY_WRITE (20_memory.md R66). Everything not named in these effects is unchanged. -/
def CommandRule (i : Instr) (op : Byte) (errorIf : Regs → Option Byte) (effect : Regs → Regs) : Prop :=
  decode op = .ok i ∧
  (∀ s : State, s.regs.busy = true → errorIf s.regs = none →
    exec i s = .next { s with regs := { effect s.regs with busy := false, done := true, pend := none } }) ∧
  (∀ s : State, s.regs.busy = false →
    exec i s = .next { s with regs := afterIssue i (errorIf s.regs) s.regs }) ∧
  (∀ s : State, s.regs.busy = true →
    busWrite 0x20 op s = .next { s with regs := { s.regs with err := true, errcode := 0x06 } })

end Sys2Proof.Machine
end

