-- ==== Sys2Proof/Certificates/Slice0/Obligations.lean ====
section
/-! DEFINITION. The statements for the provers. Addresses, opcodes and codes stand in them as the numbers the spec gives. -/

open Sys2Proof Sys2Proof.Machine

/-! ## Encoding -/

/-- 30_encoding.md R92, opcode and mnemonic columns: each legal byte decodes to its command. -/
def Obligations.OpcodeBytesDecode : Prop :=
  decode 0x00 = .ok .nop ∧ decode 0x01 = .ok .keyexp ∧ decode 0x02 = .ok .keyclr ∧ decode 0x03 = .ok .enc ∧
  decode 0x04 = .ok .dec ∧ decode 0x05 = .ok .encf ∧ decode 0x06 = .ok .decf ∧ decode 0x07 = .ok .pad ∧
  decode 0x08 = .ok .chkpad ∧ decode 0x10 = .ok .gfmul ∧ decode 0x11 = .ok .xtime ∧ decode 0x12 = .ok .dot ∧
  decode 0x13 = .ok .sbox ∧ decode 0x14 = .ok .isbox ∧ decode 0x20 = .ok .subbytes ∧ decode 0x21 = .ok .shiftrows ∧
  decode 0x22 = .ok .mixcol ∧ decode 0x23 = .ok .addrk ∧ decode 0x28 = .ok .invsubbytes ∧
  decode 0x29 = .ok .invshiftrows ∧ decode 0x2A = .ok .invmixcol

/-- 30_encoding.md R90, R91: the whole byte is the opcode, so decoding and encoding are inverse to each other: a byte
decodes to a command exactly when it is that command's byte. -/
def Obligations.DecodeInvertsEncode : Prop :=
  ∀ (v : Byte) (i : Instr), decode v = .ok i ↔ encode i = v

/-- 30_encoding.md R94: the illegal bytes are 0x09..0x0F, 0x15..0x1F, 0x24..0x27 and 0x2B..0xFF, 235 of them; a CMD write of one
while BUSY = 0 raises ILLEGAL_CMD (0x01) and changes nothing else but DONE <- 0. -/
def Obligations.IllegalBytesRaiseIllegalCmd : Prop :=
  (∀ v : Byte, decode v = .error .illegalCmd ↔
    (0x09 ≤ v.toNat ∧ v.toNat ≤ 0x0F) ∨ (0x15 ≤ v.toNat ∧ v.toNat ≤ 0x1F) ∨ (0x24 ≤ v.toNat ∧ v.toNat ≤ 0x27) ∨
      (0x2B ≤ v.toNat ∧ v.toNat ≤ 0xFF)) ∧
  (List.range 256).countP (fun n => (decode (BitVec.ofNat 8 n)).toOption.isNone) = 235 ∧
  (∀ (s : State) (v : Byte), s.regs.busy = false → decode v = .error .illegalCmd →
    busWrite 0x20 v s = .next { s with regs := { s.regs with done := false, err := true, errcode := 0x01 } })

/-- 30_encoding.md R98: the 17-bit listing word of a host statement, bit by bit, and its decoder, which inverts it. That an RD word
with a data byte lists nothing is the model's choice (log 17). -/
def Obligations.ListingWordsRoundTrip : Prop :=
  (∀ t : Transaction, decodeListing (encodeListing t) = some t) ∧
  (∀ (w : BitVec 17) (t : Transaction), decodeListing w = some t → encodeListing t = w) ∧
  (∀ a d : Byte, (encodeListing (.wr a d)).getLsbD 16 = true ∧ (encodeListing (.wr a d)).extractLsb' 8 8 = a ∧
    (encodeListing (.wr a d)).extractLsb' 0 8 = d) ∧
  (∀ a : Byte, (encodeListing (.rd a)).getLsbD 16 = false ∧ (encodeListing (.rd a)).extractLsb' 8 8 = a ∧
    (encodeListing (.rd a)).extractLsb' 0 8 = 0) ∧
  encodeListing (.wr 0x20 0x03) = 0x12003 ∧ encodeListing (.rd 0x21) = 0x02100

/-! ## Steps -/

/-- 40_command_lifecycle.md R110, R114: a CMD write of a decoded command while BUSY = 0 runs its meaning (`exec`), and so does the
CORE step of a pending command; a byte placed by `withFetchWord` is the command the very next step runs. What the step adds: the
statement leaves the program, the turn leaves `sched` (the model's fields, log 2, 8, 9). -/
def Obligations.StepRunsTheDecodedCommand : Prop :=
  (∀ (s : State) (v : Byte) (i : Instr) (rest : List HostStmt), turnOf s = .host →
    s.program = .bus (.wr 0x20 v) :: rest → s.regs.busy = false → decode v = .ok i →
    step s = exec i { s with program := rest, sched := s.sched.tail }) ∧
  (∀ (s : State) (i : Instr), turnOf s = .core → s.regs.busy = true → s.regs.pend = some i →
    step s = exec i { s with sched := s.sched.tail }) ∧
  (∀ (s : State) (i : Instr), step (s.withFetchWord 8 (encode i).toNat) =
    exec i { s with regs := { s.regs with busy := false, pend := none } }) ∧
  (∀ s : State, turnOf s = .core → s.regs.busy = false → step s = .next { s with sched := s.sched.tail })

/-- 30_encoding.md R96, R97: a WR statement is a BusWrite, an RD statement logs the value it reads, and POLL reads STATUS (0x21) and stays
the next statement until the value read has bit 0 = 0. That the statements stand in a list and the values in another is the model's form
(log 8). -/
def Obligations.HostStatementsStep : Prop :=
  (∀ (s : State) (a d : Byte) (rest : List HostStmt), turnOf s = .host → s.program = .bus (.wr a d) :: rest →
    step s = busWrite a d { s with program := rest, sched := s.sched.tail }) ∧
  (∀ (s : State) (a : Byte) (rest : List HostStmt), turnOf s = .host → s.program = .bus (.rd a) :: rest →
    step s = .next { (busRead a s).2 with
      program := rest, sched := s.sched.tail, reads := s.reads ++ [(busRead a s).1] }) ∧
  (∀ (s : State) (rest : List HostStmt), turnOf s = .host → s.program = .poll :: rest →
    step s = .next { s with
      program := if s.regs.busy then .poll :: rest else rest
      sched := s.sched.tail
      reads := s.reads ++ [statusByte s.regs] })

/-- 00_scope.md R14: every transaction has a defined effect, and no step stops; the only free values are the reads of
70_reset_and_hazards.md R312. In states with BUSY = 1 and PEND = none, which no run reaches, that a read is exact and what the CORE step
does are the model's choice (log 4). -/
def Obligations.EveryStepAnswers : Prop :=
  (∀ s : State, ∃ t, step s = .next t) ∧
  (∀ (s : State) (a v : Byte), ∃ t, busWrite a v s = .next t) ∧
  (∀ (s : State) (a : Byte), ¬ (s.regs.busy = true ∧ ∃ i, s.regs.pend = some i ∧ readSet i (portOf a) = true) →
    busRead a s = (peek s.regs (portOf a), s))

/-! ## Reset -/

/-- 70_reset_and_hazards.md R300, R301: reset, at any turn, sets every register to the value listed, whatever the state before it; a
pending command is abandoned, and the CORE step after the reset performs nothing. That the program, the values read and the draws stay as they
were at a reset is the model's choice (log 16). -/
def Obligations.ResetSetsEveryRegister : Prop :=
  (State.reset.regs =
    { key := Vector.replicate 16 0, state := Vector.replicate 16 0, rk := Vector.replicate 11 (Vector.replicate 16 0),
      len := 0, padn := 0, outlen := 0, rksel := 0, dotlen := 0, gfA := 0, gfB := 0, gfR := 0,
      dota := Vector.replicate 4 0, dotb := Vector.replicate 4 0, busy := false, done := false, err := false,
      keyv := false, padv := false, errcode := 0, pend := none }) ∧
  statusByte State.reset.regs = 0x00 ∧
  (∀ (s : State) (rest : List Turn), s.sched = .reset :: rest →
    step s = .next { s with regs := State.reset.regs, sched := rest }) ∧
  (∀ (s : State) (rest : List Turn), s.sched = .reset :: .core :: rest →
    ∃ t u, step s = .next t ∧ step t = .next u ∧ u.regs = State.reset.regs)

/-! ## The bus -/

/-- 20_memory.md R65: what BusRead returns at each address. A read in ReadSet(PEND) while BUSY = 1 gives the next `draw()`, whatever its
value; no register changes. That an owned read takes its value at the counter `draws` and advances it is the model's choice (log 5), and so
is, in states with BUSY = 1 and PEND = none, which no run reaches, that every read is exact (log 4). -/
def Obligations.BusReadReturnsTheAddressedValue : Prop :=
  ∀ s : State,
  (∀ a : Byte, (busRead a s).2.regs = s.regs) ∧
  (∀ a : Byte, (s.regs.busy = true ∧ ∃ i, s.regs.pend = some i ∧ readSet i (portOf a) = true) →
    busRead a s = (Config.draw s.draws, { s with draws := s.draws + 1 })) ∧
  (∀ a : Byte, ¬ (s.regs.busy = true ∧ ∃ i, s.regs.pend = some i ∧ readSet i (portOf a) = true) →
    (busRead a s).2 = s ∧
    (∀ k : Fin 16, a = BitVec.ofNat 8 k.val → (busRead a s).1 = s.regs.key[k]) ∧
    (∀ k : Fin 16, a = BitVec.ofNat 8 (0x10 + k.val) → (busRead a s).1 = s.regs.state[k]) ∧
    (a = 0x20 → (busRead a s).1 = 0x00) ∧
    (a = 0x21 → (busRead a s).1 =
      0#3 ++ BitVec.ofBool s.regs.padv ++ BitVec.ofBool s.regs.keyv ++ BitVec.ofBool s.regs.err ++
        BitVec.ofBool s.regs.done ++ BitVec.ofBool s.regs.busy) ∧
    (a = 0x22 → (busRead a s).1 = s.regs.errcode) ∧
    (a = 0x23 → (busRead a s).1 = s.regs.len) ∧
    (a = 0x24 → (busRead a s).1 = s.regs.padn) ∧
    (a = 0x25 → (busRead a s).1 = s.regs.outlen) ∧
    (a = 0x26 → (busRead a s).1 = s.regs.rksel) ∧
    (a = 0x27 → (busRead a s).1 = s.regs.dotlen) ∧
    (a = 0x28 → (busRead a s).1 = s.regs.gfA) ∧
    (a = 0x29 → (busRead a s).1 = s.regs.gfB) ∧
    (a = 0x2A → (busRead a s).1 = s.regs.gfR) ∧
    (∀ i : Fin 4, a = BitVec.ofNat 8 (0x30 + i.val) → (busRead a s).1 = s.regs.dota[i]) ∧
    (∀ i : Fin 4, a = BitVec.ofNat 8 (0x34 + i.val) → (busRead a s).1 = s.regs.dotb[i]) ∧
    (∀ (k : Fin 16) (j : Fin 11), a = BitVec.ofNat 8 (0x40 + k.val) → s.regs.rksel.toNat = j.val →
      (busRead a s).1 = s.regs.rk[j][k]) ∧
    (∀ k : Fin 16, a = BitVec.ofNat 8 (0x40 + k.val) → 10 < s.regs.rksel.toNat → (busRead a s).1 = 0x00) ∧
    ((0x2B ≤ a.toNat ∧ a.toNat ≤ 0x2F) ∨ (0x38 ≤ a.toNat ∧ a.toNat ≤ 0x3F) ∨ 0x50 ≤ a.toNat → (busRead a s).1 = 0x00))

/-- 20_memory.md R62, R63: reserved addresses read 0x00 and ignore writes; writes to the read-only addresses ERRCODE, PADN, OUTLEN, GF_R and
RKWIN are ignored; no error, BUSY or not. -/
def Obligations.ReservedAndReadOnlyAddresses : Prop :=
  (∀ (s : State) (a : Byte), (0x2B ≤ a.toNat ∧ a.toNat ≤ 0x2F) ∨ (0x38 ≤ a.toNat ∧ a.toNat ≤ 0x3F) ∨ 0x50 ≤ a.toNat →
    busRead a s = (0x00, s) ∧ ∀ v : Byte, busWrite a v s = .next s) ∧
  (∀ (s : State) (a v : Byte), a = 0x22 ∨ a = 0x24 ∨ a = 0x25 ∨ a = 0x2A ∨ (0x40 ≤ a.toNat ∧ a.toNat ≤ 0x4F) →
    busWrite a v s = .next s)

/-- 20_memory.md R64, R66 and 70_reset_and_hazards.md R313: what a BusWrite does at each address, while BUSY = 0 and while BUSY = 1. Only the register
written changes (and KEYV for a KEY byte). -/
def Obligations.BusWriteStoresOrIsDropped : Prop :=
  ∀ (s : State) (v : Byte),
  (busWrite 0x21 v s = .next (s.setRegs (statusWrite v s.regs))) ∧
  (∀ a : Byte, a ≠ 0x21 →
    ¬ (a.toNat ≤ 0x20 ∨ a = 0x23 ∨ (0x26 ≤ a.toNat ∧ a.toNat ≤ 0x29) ∨ (0x30 ≤ a.toNat ∧ a.toNat ≤ 0x37)) →
    busWrite a v s = .next s) ∧
  (∀ a : Byte, s.regs.busy = true →
    (a.toNat ≤ 0x20 ∨ a = 0x23 ∨ (0x26 ≤ a.toNat ∧ a.toNat ≤ 0x29) ∨ (0x30 ≤ a.toNat ∧ a.toNat ≤ 0x37)) →
    busWrite a v s = .next { s with regs := { s.regs with err := true, errcode := 0x06 } }) ∧
  (s.regs.busy = false →
    (∀ k : Fin 16, busWrite (BitVec.ofNat 8 k.val) v s =
      .next { s with regs := { s.regs with key := s.regs.key.set k v, keyv := false } }) ∧
    (∀ k : Fin 16, busWrite (BitVec.ofNat 8 (0x10 + k.val)) v s =
      .next { s with regs := { s.regs with state := s.regs.state.set k v } }) ∧
    (busWrite 0x20 v s = issueCommand v s) ∧
    (busWrite 0x23 v s = .next { s with regs := { s.regs with len := v } }) ∧
    (busWrite 0x26 v s = .next { s with regs := { s.regs with rksel := v } }) ∧
    (busWrite 0x27 v s = .next { s with regs := { s.regs with dotlen := v } }) ∧
    (busWrite 0x28 v s = .next { s with regs := { s.regs with gfA := v } }) ∧
    (busWrite 0x29 v s = .next { s with regs := { s.regs with gfB := v } }) ∧
    (∀ i : Fin 4, busWrite (BitVec.ofNat 8 (0x30 + i.val)) v s =
      .next { s with regs := { s.regs with dota := s.regs.dota.set i v } }) ∧
    (∀ i : Fin 4, busWrite (BitVec.ofNat 8 (0x34 + i.val)) v s =
      .next { s with regs := { s.regs with dotb := s.regs.dotb.set i v } }))

/-- 20_memory.md R67: a performed KEY write clears KEYV, also when it stores the value the byte had, and leaves RK as it was; KEYV then
stays 0 until a KEYEXP completes, and meanwhile every keyed command is rejected with NO_KEY. In states with BUSY = 1 and PEND = none, which
no run reaches, that the CORE step leaves KEYV is the model's choice (log 4). -/
def Obligations.KeyWriteEndsTheSession : Prop :=
  (∀ (s : State) (k : Fin 16) (v : Byte), s.regs.busy = false →
    ∃ t, busWrite (BitVec.ofNat 8 k.val) v s = .next t ∧ t.regs.keyv = false ∧ t.regs.rk = s.regs.rk ∧
      t.regs.key = s.regs.key.set k v) ∧
  (∀ s t : State, step s = .next t → s.regs.keyv = false → t.regs.keyv = true →
    turnOf s = .core ∧ s.regs.busy = true ∧ s.regs.pend = some .keyexp) ∧
  (∀ (s : State) (op : Byte), s.regs.busy = false → s.regs.keyv = false →
    (op = 0x03 ∨ op = 0x04 ∨ op = 0x05 ∨ op = 0x06 ∨ op = 0x23) →
    busWrite 0x20 op s = .next { s with regs := { s.regs with done := false, err := true, errcode := 0x02 } })

/-- 20_memory.md R68: StatusWrite, BUSY or not: bit 1 clears DONE, bit 2 clears ERR and ERRCODE, the other bits of v are ignored, and nothing
else changes. -/
def Obligations.StatusWriteClearsDoneAndErr : Prop :=
  ∀ (s : State) (v : Byte),
  busWrite 0x21 v s = .next { s with regs := { s.regs with
    done := if v.getLsbD 1 then false else s.regs.done
    err := if v.getLsbD 2 then false else s.regs.err
    errcode := if v.getLsbD 2 then 0x00 else s.regs.errcode } } ∧
  (v.getLsbD 1 = false → v.getLsbD 2 = false → busWrite 0x21 v s = .next s)

/-- 10_state.md R39: STATUS[7:5] read 0 and writes to them are ignored. -/
def Obligations.ReservedStatusBits : Prop :=
  (∀ r : Regs, (statusByte r).getLsbD 5 = false ∧ (statusByte r).getLsbD 6 = false ∧ (statusByte r).getLsbD 7 = false) ∧
  (∀ (s : State) (v : Byte), busWrite 0x21 v s = busWrite 0x21 (v &&& 0x1F) s)

/-- 10_state.md R33, the bit positions: BUSY is bit 0, DONE bit 1, ERR bit 2, KEYV bit 3, PADV bit 4. -/
def Obligations.StatusBitPositions : Prop :=
  ∀ r : Regs, (statusByte r).getLsbD 0 = r.busy ∧ (statusByte r).getLsbD 1 = r.done ∧ (statusByte r).getLsbD 2 = r.err ∧
    (statusByte r).getLsbD 3 = r.keyv ∧ (statusByte r).getLsbD 4 = r.padv

/-- 40_command_lifecycle.md R117, the table: the addresses in ReadSet(op); STATUS is never one. -/
def Obligations.ReadSetAddresses : Prop :=
  ∀ a : Byte,
  (∀ i : Instr, i = .nop → readSet i (portOf a) = false) ∧
  (readSet .keyexp (portOf a) = true ↔ 0x40 ≤ a.toNat ∧ a.toNat ≤ 0x4F) ∧
  (readSet .keyclr (portOf a) = true ↔ a.toNat ≤ 0x0F ∨ (0x40 ≤ a.toNat ∧ a.toNat ≤ 0x4F)) ∧
  (∀ i : Instr, i ∈ [Instr.enc, .dec, .encf, .pad, .subbytes, .shiftrows, .mixcol, .addrk, .invsubbytes, .invshiftrows,
      .invmixcol] → (readSet i (portOf a) = true ↔ 0x10 ≤ a.toNat ∧ a.toNat ≤ 0x1F)) ∧
  (readSet .decf (portOf a) = true ↔ (0x10 ≤ a.toNat ∧ a.toNat ≤ 0x1F) ∨ a = 0x24 ∨ a = 0x25) ∧
  (readSet .chkpad (portOf a) = true ↔ a = 0x24 ∨ a = 0x25) ∧
  (∀ i : Instr, i ∈ [Instr.gfmul, .xtime, .dot, .sbox, .isbox] → (readSet i (portOf a) = true ↔ a = 0x2A)) ∧
  (∀ i : Instr, readSet i (portOf 0x21) = false)

/-! ## Issue and errors -/

/-- 40_command_lifecycle.md R110, R112, R118: a CMD write while BUSY = 0 clears DONE; an illegal opcode is rejected; for a legal one the checks are
made in the order of R112: the first code that applies is recorded and the command has no other effect; with none it is accepted. While
BUSY = 1 the write is dropped with BUSY_WRITE. -/
def Obligations.IssueFollowsThePreconditions : Prop :=
  (∀ (s : State) (v : Byte), s.regs.busy = true →
    busWrite 0x20 v s = .next { s with regs := { s.regs with err := true, errcode := 0x06 } }) ∧
  (∀ (s : State) (v : Byte), s.regs.busy = false → (∀ i : Instr, encode i ≠ v) →
    busWrite 0x20 v s = .next { s with regs := { s.regs with done := false, err := true, errcode := 0x01 } }) ∧
  ∀ (s : State) (i : Instr), s.regs.busy = false →
    busWrite 0x20 (encode i) s = .next (s.setRegs (afterIssue i
      (if i ∈ [Instr.enc, .dec, .encf, .decf, .addrk] ∧ s.regs.keyv = false then some 0x02
       else if i = .pad ∧ 16 < s.regs.len.toNat then some 0x03
       else if i = .encf ∧ 15 < s.regs.len.toNat then some 0x03
       else if i = .dot ∧ 4 < s.regs.dotlen.toNat then some 0x04
       else if i = .addrk ∧ 10 < s.regs.rksel.toNat then some 0x05
       else none) s.regs))

/-- 60_exceptions.md R274: one transaction raises at most one error: BUSY_WRITE first, then ILLEGAL_CMD, then NO_KEY, then the range check; with
the rule's three examples; each as the whole next state. A read raises none. -/
def Obligations.ErrorPriority : Prop :=
  (∀ (s : State) (v : Byte), s.regs.busy = true →
    busWrite 0x20 v s = .next { s with regs := { s.regs with err := true, errcode := 0x06 } }) ∧
  (∀ (s : State) (v : Byte), s.regs.busy = false → decode v = .error .illegalCmd →
    busWrite 0x20 v s = .next { s with regs := { s.regs with done := false, err := true, errcode := 0x01 } }) ∧
  (∀ (s : State) (i : Instr), s.regs.busy = false → s.regs.keyv = false → i ∈ [Instr.enc, .dec, .encf, .decf, .addrk] →
    busWrite 0x20 (encode i) s = .next { s with regs := { s.regs with done := false, err := true, errcode := 0x02 } }) ∧
  (∀ s : State, s.regs.busy = false →
    (s.regs.keyv = true → s.regs.rksel.toNat ≤ 10 →
      busWrite 0x20 0x23 s = .next { s with regs := { s.regs with done := false, busy := true, pend := some .addrk } }) ∧
    (s.regs.keyv = true → 10 < s.regs.rksel.toNat →
      busWrite 0x20 0x23 s = .next { s with regs := { s.regs with done := false, err := true, errcode := 0x05 } }) ∧
    (s.regs.keyv = true → 15 < s.regs.len.toNat →
      busWrite 0x20 0x05 s = .next { s with regs := { s.regs with done := false, err := true, errcode := 0x03 } }) ∧
    (16 < s.regs.len.toNat →
      busWrite 0x20 0x07 s = .next { s with regs := { s.regs with done := false, err := true, errcode := 0x03 } }) ∧
    (4 < s.regs.dotlen.toNat →
      busWrite 0x20 0x12 s = .next { s with regs := { s.regs with done := false, err := true, errcode := 0x04 } })) ∧
  (∀ s : State, s.regs.busy = false → s.regs.keyv = false → s.regs.rksel = 11 →
    busWrite 0x20 0x23 s = .next { s with regs := { s.regs with done := false, err := true, errcode := 0x02 } }) ∧
  (∀ s : State, s.regs.busy = false → s.regs.keyv = false → s.regs.len = 20 →
    busWrite 0x20 0x05 s = .next { s with regs := { s.regs with done := false, err := true, errcode := 0x02 } }) ∧
  (∀ s : State, s.regs.busy = true →
    busWrite 0x20 0xFF s = .next { s with regs := { s.regs with err := true, errcode := 0x06 } }) ∧
  (∀ (s : State) (a : Byte), (busRead a s).2.regs.err = s.regs.err ∧ (busRead a s).2.regs.errcode = s.regs.errcode)

/-- 60_exceptions.md R276: errors are precise. A write that is dropped while BUSY = 1, or a command turned away while BUSY = 0 (after it
BUSY is still 0), leaves everything as it was, hidden state and the host's own record too, but for ERR, ERRCODE and, for a command,
DONE; so every other address reads as before. -/
def Obligations.ErrorsArePrecise : Prop :=
  ∀ (s t : State) (a v : Byte), busWrite a v s = .next t →
    ((s.regs.busy = true ∧ hostWritable (portOf a) = true) ∨
      (s.regs.busy = false ∧ a = 0x20 ∧ t.regs.busy = false)) →
    t = { s with regs := { s.regs with err := true, errcode := t.regs.errcode, done := t.regs.done } } ∧
    1 ≤ t.regs.errcode.toNat ∧ t.regs.errcode.toNat ≤ 6 ∧
    (s.regs.busy = true → t.regs.done = s.regs.done) ∧ (s.regs.busy = false → t.regs.done = false) ∧
    (∀ b : Byte, b ≠ 0x21 → b ≠ 0x22 → peek t.regs (portOf b) = peek s.regs (portOf b))

/-- 10_state.md R36: every raise sets ERR; it stays 1 until a host write to STATUS with bit 2 = 1 or a reset; a completing command does not
change it. In states with BUSY = 1 and PEND = none, which no run reaches, that the CORE step leaves ERR is the model's choice (log 4). -/
def Obligations.ErrIsSticky : Prop :=
  (∀ (c : ErrCode) (r : Regs), (raiseError c r).err = true) ∧
  (∀ s t : State, step s = .next t → s.regs.err = true → t.regs.err = false →
    turnOf s = .reset ∨
      (turnOf s = .host ∧ ∃ v rest, s.program = .bus (.wr 0x21 v) :: rest ∧ v.getLsbD 2 = true)) ∧
  (∀ (s t : State) (i : Instr), s.regs.busy = true → exec i s = .next t → t.regs.err = s.regs.err)

/-! ## The commands -/

/-- 40_command_lifecycle.md R119, NOP, with its example from reset. The example runs in one interleaving, the default turns of an empty `sched`,
which are the model's choice (log 2, log 6). -/
def Obligations.NopRule : Prop :=
  CommandRule .nop 0x00 (fun _ => none) (fun r => r) ∧
  (∃ t, core.run 3 { State.reset with program := runStmt .nop } = .next t ∧ statusByte t.regs = 0x02 ∧
    t.regs = { State.reset.regs with done := true })

/-- 41_field_arithmetic.md R135, R136, R137: XTIME, GFMUL and DOT, with their corner cases and examples; R132: `dot` is the XOR-sum of the
pairwise products, element by element. -/
def Obligations.FieldCommandRules : Prop :=
  CommandRule .xtime 0x11 (fun _ => none) (fun r => { r with gfR := double r.gfA }) ∧
  (double 0x00 = 0x00 ∧ double 0x80 = 0x1B ∧ double 0xFF = 0xE5 ∧ double 0x7F = 0xFE ∧ double 0x8D = 0x01 ∧
    double 0x57 = 0xAE ∧ double 0xAE = 0x47) ∧
  CommandRule .gfmul 0x10 (fun _ => none) (fun r => { r with gfR := multiply r.gfA r.gfB }) ∧
  (∀ a b : Byte, multiply 0x00 b = 0x00 ∧ multiply a 0x00 = 0x00 ∧ multiply 0x01 b = b ∧ multiply a 0x01 = a ∧
    multiply a b = multiply b a) ∧
  (multiply 0xFF 0xFF = 0x13 ∧ multiply 0x53 0xCA = 0x01 ∧ multiply 0x80 0x80 = 0x9A ∧ multiply 0x57 0x83 = 0xC1 ∧
    multiply 0x57 0x13 = 0xFE) ∧
  CommandRule .dot 0x12 (fun r => if 4 < r.dotlen.toNat then some 0x04 else none)
    (fun r => { r with gfR := dot r.dota r.dotb r.dotlen.toNat }) ∧
  (∀ a b : Quad, dot a b 0 = 0x00 ∧ dot a b 1 = multiply a[0] b[0]) ∧
  (∀ (a b : Quad) (n : Fin 4), dot a b (n.val + 1) = dot a b n.val ^^^ multiply a[n] b[n]) ∧
  (∀ (a b a' b' : Quad) (n : Nat), (∀ i : Fin 4, i.val < n → a[i] = a'[i] ∧ b[i] = b'[i]) → dot a b n = dot a' b' n) ∧
  dot #v[0x02, 0x03, 0x01, 0x01] #v[0xDB, 0x13, 0x53, 0x45] 4 = 0x8E ∧
  dot #v[0x02, 0x03, 0x01, 0x01] #v[0xDB, 0x13, 0x53, 0x45] 2 = 0x98

/-- 42_sbox.md R155, R156: SBOX and ISBOX, with their corner cases and examples. -/
def Obligations.ByteLookupRules : Prop :=
  CommandRule .sbox 0x13 (fun _ => none) (fun r => { r with gfR := subByte r.gfA }) ∧
  (subByte 0x00 = 0x63 ∧ subByte 0xFF = 0x16 ∧ subByte 0x01 = 0x7C ∧ subByte 0x53 = 0xED ∧ ∀ b : Byte, subByte b ≠ b) ∧
  CommandRule .isbox 0x14 (fun _ => none) (fun r => { r with gfR := invSubByte r.gfA }) ∧
  (invSubByte 0x63 = 0x00 ∧ invSubByte 0x00 = 0x52 ∧ invSubByte 0x16 = 0xFF ∧ invSubByte 0xED = 0x53 ∧
    ∀ b : Byte, invSubByte (subByte b) = b)

/-- 43_key_schedule.md R176, R178: KEYEXP and KEYCLR, with the examples and corner cases. -/
def Obligations.KeyCommandRules : Prop :=
  CommandRule .keyexp 0x01 (fun _ => none) (fun r => { r with rk := expand r.key, keyv := true }) ∧
  (expand (Vector.replicate 16 0))[1] = hexBlock 0x62636363626363636263636362636363 ∧
  (expand (hexBlock 0x000102030405060708090A0B0C0D0E0F))[1] = hexBlock 0xD6AA74FDD2AF72FADAA678F1D6AB76FE ∧
  (expand (hexBlock 0x000102030405060708090A0B0C0D0E0F))[10] = hexBlock 0x13111D7FE3944A17F307A78B4D2B30C5 ∧
  (∀ k : Fin 16, readSet .keyexp (portOf (BitVec.ofNat 8 (0x40 + k.val))) = true) ∧
  CommandRule .keyclr 0x02 (fun _ => none) (fun r => { r with
    key := Vector.replicate 16 0, rk := Vector.replicate 11 (Vector.replicate 16 0), keyv := false })

/-- 45_cipher.md R222, R223: ENC and DEC, with the source's known-answer vector; DEC gives the unique preimage under Encrypt, whether
or not an ENC made the block. -/
def Obligations.CipherCommandRules : Prop :=
  CommandRule .enc 0x03 (fun r => if r.keyv then none else some 0x02) (fun r => { r with state := encrypt r.state r.rk }) ∧
  encrypt (Vector.replicate 16 0) (expand (Vector.replicate 16 0)) = hexBlock 0x66E94BD4EF8A2C3B884CFA59CA342B2E ∧
  CommandRule .dec 0x04 (fun r => if r.keyv then none else some 0x02) (fun r => { r with state := decrypt r.state r.rk }) ∧
  decrypt (hexBlock 0x66E94BD4EF8A2C3B884CFA59CA342B2E) (expand (Vector.replicate 16 0)) = Vector.replicate 16 0 ∧
  (∀ (p c : Block) (rk : RoundKeys), encrypt p rk = c ↔ p = decrypt c rk)

/-- 46_padding.md R242, R243, R244: PAD and CHKPAD, with the corner cases and examples. -/
def Obligations.PadCommandRules : Prop :=
  CommandRule .pad 0x07 (fun r => if 16 < r.len.toNat then some 0x03 else none)
    (fun r => { r with state := padBlock r.state r.len.toNat }) ∧
  (∀ s : Block, padBlock s 0 = Vector.replicate 16 0x10 ∧ padBlock s 15 = s.set 15 0x01 ∧ padBlock s 16 = s) ∧
  (∀ (s : Block) (len : Nat) (k : Fin 16), k.val < len → (padBlock s len)[k] = s[k]) ∧
  padBlock (hexBlock 0x61626300000000000000000000000000) 3 = hexBlock 0x6162630D0D0D0D0D0D0D0D0D0D0D0D0D ∧
  CommandRule .chkpad 0x08 (fun _ => none) (fun r => { r with
    padn := BitVec.ofNat 8 (checkPad r.state)
    padv := decide (checkPad r.state ≠ 0)
    outlen := if checkPad r.state ≠ 0 then BitVec.ofNat 8 (16 - checkPad r.state) else 16 }) ∧
  (∀ s : Block, (s[15] = 0x00 → checkPad s = 0) ∧ (0x11 ≤ s[15].toNat → checkPad s = 0) ∧ (s[15] = 0x01 → checkPad s = 1) ∧
    (s = Vector.replicate 16 0x10 → checkPad s = 16) ∧
    ((∀ k : Fin 16, 1 ≤ k.val → s[k] = 0x10) → s[0] ≠ 0x10 → checkPad s = 0) ∧
    (s[15] = 0x02 → s[14] = 0x02 → checkPad s = 2) ∧ (s[15] = 0x02 → s[14] = 0x03 → checkPad s = 0)) ∧
  checkPad (hexBlock 0x6162630D0D0D0D0D0D0D0D0D0D0D0D0D) = 13

/-- 46_padding.md R245, R246: ENCF and DECF, with the corner cases and the examples under the key
00112233445566778899AABBCCDDEEFF. -/
def Obligations.FinalBlockCommandRules : Prop :=
  CommandRule .encf 0x05
    (fun r => if r.keyv = false then some 0x02 else if 15 < r.len.toNat then some 0x03 else none)
    (fun r => { r with state := encrypt (padBlock r.state r.len.toNat) r.rk }) ∧
  (∀ s : Block, encrypt (padBlock s 0) (expand (hexBlock 0x00112233445566778899AABBCCDDEEFF)) =
    hexBlock 0x00657EA140655A44782747705D422FAD) ∧
  (∀ s : Block, padBlock s 0 = Vector.replicate 16 0x10 ∧ padBlock s 15 = s.set 15 0x01) ∧
  CommandRule .decf 0x06 (fun r => if r.keyv then none else some 0x02) (fun r => { r with
    state := decrypt r.state r.rk
    padn := BitVec.ofNat 8 (checkPad (decrypt r.state r.rk))
    padv := decide (checkPad (decrypt r.state r.rk) ≠ 0)
    outlen := if checkPad (decrypt r.state r.rk) ≠ 0 then BitVec.ofNat 8 (16 - checkPad (decrypt r.state r.rk)) else 16 }) ∧
  decrypt (hexBlock 0x00657EA140655A44782747705D422FAD) (expand (hexBlock 0x00112233445566778899AABBCCDDEEFF)) =
    Vector.replicate 16 0x10 ∧
  checkPad (Vector.replicate 16 0x10) = 16

/-- 44_round_transforms.md R200, R201, R202, R204, R205, R206: the six unkeyed single transforms, with their examples and corner cases; R190, R191:
the substitutions byte by byte. R202's dependence of an output byte on its column: another column does not matter, and changing any one byte
of its own column, the others kept, changes it. -/
def Obligations.TransformCommandRules : Prop :=
  CommandRule .subbytes 0x20 (fun _ => none) (fun r => { r with state := subBytes r.state }) ∧
  (∀ (s : Block) (k : Fin 16), (subBytes s)[k] = subByte s[k]) ∧
  (subBytes (Vector.replicate 16 0x00) = Vector.replicate 16 0x63 ∧
    subBytes (hexBlock 0x000153FF000000000000000000000000) = hexBlock 0x637CED16636363636363636363636363 ∧
    ∀ (s : Block) (k : Fin 16), (subBytes s)[k] ≠ s[k]) ∧
  CommandRule .shiftrows 0x21 (fun _ => none) (fun r => { r with state := shiftRows r.state }) ∧
  (shiftRows (hexBlock 0x000102030405060708090A0B0C0D0E0F) = hexBlock 0x00050A0F04090E03080D02070C01060B ∧
    ∀ s : Block, ((∀ r c : Fin 4, cell s r c = cell s r 0) → shiftRows s = s) ∧
      shiftRows (shiftRows (shiftRows (shiftRows s))) = s) ∧
  CommandRule .mixcol 0x22 (fun _ => none) (fun r => { r with state := mixColumns r.state }) ∧
  (mixColumns (hexBlock 0xDB135345F20A225CD4D4D4D500000000) = hexBlock 0x8E4DA1BC9FDC589DD5D5D7D600000000 ∧
    (∀ (s : Block) (c : Fin 4), (∀ r : Fin 4, cell s r c = cell s 0 c) →
      ∀ r : Fin 4, cell (mixColumns s) r c = cell s r c) ∧
    (∀ (s : Block) (c : Fin 4), (∀ r : Fin 4, cell s r c = 0x00) → ∀ r : Fin 4, cell (mixColumns s) r c = 0x00) ∧
    (∀ (s t : Block) (c : Fin 4), column s c = column t c → column (mixColumns s) c = column (mixColumns t) c) ∧
    (∀ (s t : Block) (c i : Fin 4), (∀ r : Fin 4, r ≠ i → cell s r c = cell t r c) → cell s i c ≠ cell t i c →
      ∀ r : Fin 4, cell (mixColumns s) r c ≠ cell (mixColumns t) r c)) ∧
  CommandRule .invsubbytes 0x28 (fun _ => none) (fun r => { r with state := invSubBytes r.state }) ∧
  (∀ (s : Block) (k : Fin 16), (invSubBytes s)[k] = invSubByte s[k]) ∧
  (invSubBytes (Vector.replicate 16 0x63) = Vector.replicate 16 0x00 ∧
    invSubBytes (hexBlock 0x637CED16636363636363636363636363) = hexBlock 0x000153FF000000000000000000000000 ∧
    ∀ s : Block, invSubBytes (subBytes s) = s) ∧
  CommandRule .invshiftrows 0x29 (fun _ => none) (fun r => { r with state := invShiftRows r.state }) ∧
  (invShiftRows (hexBlock 0x000102030405060708090A0B0C0D0E0F) = hexBlock 0x000D0A0704010E0B0805020F0C090603 ∧
    ∀ s : Block, invShiftRows (shiftRows s) = s ∧ shiftRows (shiftRows (shiftRows s)) = invShiftRows s) ∧
  CommandRule .invmixcol 0x2A (fun _ => none) (fun r => { r with state := invMixColumns r.state }) ∧
  (invMixColumns (hexBlock 0x8E4DA1BC000000000000000000000000) = hexBlock 0xDB135345000000000000000000000000 ∧
    (∀ (s : Block) (c : Fin 4), (∀ r : Fin 4, cell s r c = cell s 0 c) →
      ∀ r : Fin 4, cell (invMixColumns s) r c = cell s r c) ∧
    ∀ s : Block, invMixColumns (mixColumns s) = s)

/-- 44_round_transforms.md R203: ADDRK, its two errors in order, its corner cases and its example; R198: AddRoundKey byte by byte, and its own
inverse. -/
def Obligations.AddrkRule : Prop :=
  CommandRule .addrk 0x23
    (fun r => if r.keyv = false then some 0x02 else if 10 < r.rksel.toNat then some 0x05 else none)
    (fun r => { r with state := addRoundKey r.state (roundKey r.rk r.rksel.toNat) }) ∧
  (∀ (rk : RoundKeys) (j : Fin 11), roundKey rk j.val = rk[j]) ∧
  (∀ key : Block, roundKey (expand key) 0 = key) ∧
  (∀ (s k : Block) (i : Fin 16), (addRoundKey s k)[i] = s[i] ^^^ k[i]) ∧
  (∀ s k : Block, addRoundKey (addRoundKey s k) k = s) ∧
  (∀ s : Block, addRoundKey s (Vector.replicate 16 0) = s) ∧
  addRoundKey (Vector.replicate 16 0x63) (roundKey (expand (Vector.replicate 16 0)) 1) =
    hexBlock 0x01000000010000000100000001000000

/-! ## Who may change what -/

/-- 10_state.md R45: a completing command writes the registers of its row only: every address outside its ReadSet but STATUS reads as
before, RK and KEYV change only for KEYEXP and KEYCLR, PADV only for CHKPAD and DECF, and ERR, ERRCODE and the host's record never; BUSY,
DONE and PEND as for every completion. That this holds too for operands out of a command's range, which no pending command has, is the
model's choice (log 7). -/
def Obligations.CompletionWritesOnlyItsWriteSet : Prop :=
  ∀ (s : State) (i : Instr), s.regs.busy = true →
    ∃ t, exec i s = .next t ∧
      (∀ a : Byte, a ≠ 0x21 → readSet i (portOf a) = false → peek t.regs (portOf a) = peek s.regs (portOf a)) ∧
      (i ≠ .keyexp → i ≠ .keyclr → t.regs.rk = s.regs.rk ∧ t.regs.keyv = s.regs.keyv) ∧
      (i ≠ .keyclr → t.regs.key = s.regs.key) ∧
      (i ≠ .chkpad → i ≠ .decf → t.regs.padv = s.regs.padv) ∧
      t.regs.err = s.regs.err ∧ t.regs.errcode = s.regs.errcode ∧
      t.regs.busy = false ∧ t.regs.done = true ∧ t.regs.pend = none ∧
      t.program = s.program ∧ t.sched = s.sched ∧ t.reads = s.reads ∧ t.draws = s.draws

/-- 10_state.md R22, R24; 43_key_schedule.md R177: RK is written only by KEYEXP, KEYCLR and reset; KEY only by a performed host write of a
KEY byte, KEYCLR and reset. In states with BUSY = 1 and PEND = none, which no run reaches, that the CORE step leaves KEY and RK is the
model's choice (log 4). -/
def Obligations.KeyMaterialWriters : Prop :=
  (∀ s t : State, step s = .next t → t.regs.rk ≠ s.regs.rk →
    turnOf s = .reset ∨
      (turnOf s = .core ∧ s.regs.busy = true ∧ (s.regs.pend = some .keyexp ∨ s.regs.pend = some .keyclr))) ∧
  (∀ s t : State, step s = .next t → t.regs.key ≠ s.regs.key →
    turnOf s = .reset ∨ (turnOf s = .core ∧ s.regs.busy = true ∧ s.regs.pend = some .keyclr) ∨
      (turnOf s = .host ∧ s.regs.busy = false ∧ ∃ a v rest, s.program = .bus (.wr a v) :: rest ∧ a.toNat ≤ 0x0F))

/-- 40_command_lifecycle.md R116, 70_reset_and_hazards.md R313: while BUSY = 1 no HOST step changes a register but DONE, ERR and ERRCODE: no operand
changes under a running command, and no second command is queued. -/
def Obligations.HostCannotDisturbARunningCommand : Prop :=
  ∀ s t : State, step s = .next t → turnOf s = .host → s.regs.busy = true →
    t.regs = { s.regs with done := t.regs.done, err := t.regs.err, errcode := t.regs.errcode }

/-! ## Invariants -/

/-- 10_state.md R47 at reset, (v) in the form that holds before a first CHKPAD or DECF. -/
def Obligations.ResetMeetsTheInvariants : Prop :=
  StateInvariants State.reset.regs ∧ PendingChecked State.reset.regs ∧ DoneClearWhileBusy State.reset.regs

/-- 10_state.md R47: every step keeps the state invariants. -/
def Obligations.EveryStepKeepsTheInvariants : Prop :=
  ∀ s t : State, StateInvariants s.regs → step s = .next t → StateInvariants t.regs

/-- 40_command_lifecycle.md R115, R116: a pending command keeps passing the checks it passed at its acceptance, so its CORE step sees operands in
range and, for a keyed command, KEYV = 1. -/
def Obligations.PendingCommandStaysChecked : Prop :=
  (∀ s t : State, BusyIffPending s.regs → PendingChecked s.regs → step s = .next t →
    BusyIffPending t.regs ∧ PendingChecked t.regs) ∧
  (∀ (r : Regs) (i : Instr), PendingChecked r → r.pend = some i →
    (i ∈ [Instr.enc, .dec, .encf, .decf, .addrk] → r.keyv = true) ∧
    (i = .pad → r.len.toNat ≤ 16) ∧ (i = .encf → r.len.toNat ≤ 15) ∧ (i = .dot → r.dotlen.toNat ≤ 4) ∧
    (i = .addrk → r.rksel.toNat ≤ 10))

/-- 40_command_lifecycle.md R117: while BUSY = 1, DONE = 0; every step keeps it so. In states with BUSY = 1 and PEND = none, which no run
reaches, that the CORE step completes is the model's choice (log 4). -/
def Obligations.DoneStaysClearWhileBusy : Prop :=
  ∀ s t : State, DoneClearWhileBusy s.regs → step s = .next t → DoneClearWhileBusy t.regs

/-- 10_state.md R47 (v): CHKPAD and DECF leave OUTLEN = 16 - PADN if PADV = 1 and 16 if PADV = 0, and every step but a reset keeps it so. In
states with BUSY = 1 and PEND = none, which no run reaches, that the CORE step leaves OUTLEN, PADN and PADV is the model's choice (log 4).
-/
def Obligations.OutlenAgreesOnceChecked : Prop :=
  (∀ s : State, s.regs.busy = true → (∃ t, exec .chkpad s = .next t ∧ OutlenAgrees t.regs) ∧
    ∃ t, exec .decf s = .next t ∧ OutlenAgrees t.regs) ∧
  (∀ s t : State, OutlenAgrees s.regs → step s = .next t → turnOf s ≠ .reset → OutlenAgrees t.regs)

/-! ## Runs -/

/-- 70_reset_and_hazards.md R321, R322: whatever the program and the interleaving, the run ends, POLL loops included, and an ended run does
nothing more (60_exceptions.md R285). That CORE moves once `sched` is used up is the model's form of weak fairness (log 2), and so is the
bound. In states with BUSY = 1 and PEND = none, which no run reaches, that the CORE step completes is the model's choice (log 4). That a run with
a turn left in `sched` is not over is the model's choice (log 23). -/
def Obligations.EveryRunEnds : Prop :=
  (∀ s : State, ∃ t, core.run (stepsToEnd s) s = .next t ∧ RunEnded t) ∧
  (∀ s : State, RunEnded s → step s = .next s)

/-- 30_encoding.md R97, 70_reset_and_hazards.md R310: `RUN m` with no interleaving chosen (log 2): a command that passes its checks is performed,
and the POLL reads the STATUS of its completion; one that does not is found rejected at the first read, BUSY being 0. -/
def Obligations.RunStatementCompletesTheCommand : Prop :=
  ∀ (s : State) (i : Instr) (rest : List HostStmt), s.sched = [] → s.regs.busy = false → s.program = runStmt i ++ rest →
    (checkPreconditions i s.regs = none →
      ∃ u, exec i (s.setRegs { s.regs with done := false, busy := true, pend := some i }) = .next u ∧
        core.run 3 s = .next { u with program := rest, reads := s.reads ++ [statusByte u.regs] } ∧
        (statusByte u.regs).getLsbD 0 = false ∧ (statusByte u.regs).getLsbD 1 = true) ∧
    (∀ c, checkPreconditions i s.regs = some c →
      ∃ t, core.run 2 s = .next t ∧ t.program = rest ∧ t.reads = s.reads ++ [statusByte t.regs] ∧
        (statusByte t.regs).getLsbD 0 = false ∧ (statusByte t.regs).getLsbD 1 = false ∧
        (statusByte t.regs).getLsbD 2 = true)

/-- 45_cipher.md R224 on the machine: in a session, RUN ENC then RUN DEC leaves STATE as it was, whatever STATE and RK hold (no interleaving
chosen, log 2). -/
def Obligations.EncThenDecRestoresTheState : Prop :=
  ∀ (s : State) (rest : List HostStmt), s.sched = [] → s.regs.busy = false → s.regs.keyv = true →
    s.program = runStmt .enc ++ runStmt .dec ++ rest →
    ∃ t, core.run 6 s = .next t ∧ t.regs = { s.regs with done := true, pend := none } ∧ t.program = rest

/-! ## The functions -/

/-- 41_field_arithmetic.md R133, laws (i) to (viii). -/
def Obligations.FieldLaws : Prop :=
  (∀ a b : Byte, multiply a b = multiply b a) ∧
  (∀ a : Byte, multiply a 0x01 = a) ∧
  (∀ a b c : Byte, multiply (multiply a b) c = multiply a (multiply b c)) ∧
  (∀ a : Byte, multiply a 0x00 = 0x00) ∧
  (∀ a b c : Byte, multiply a (b ^^^ c) = multiply a b ^^^ multiply a c) ∧
  (∀ a : Byte, multiply a 0x02 = double a) ∧
  (∀ a : Byte, a ≠ 0x00 → double^[51] a = a ∧ ∀ n, 0 < n → n < 51 → double^[n] a ≠ a) ∧
  ((multiply 0x03)^[255] 0x01 = 0x01 ∧ ∀ n, 0 < n → n < 255 → (multiply 0x03)^[n] 0x01 ≠ 0x01) ∧
  (∀ a : Byte, double (double (double (double a))) = multiply a 0x10)

/-- 41_field_arithmetic.md R131: `multiply` visits the bits of a from bit 0 upward, p being b doubled once a bit; it is the product of the two
polynomials reduced modulo 0x11B: c is the product without carries, of 15 bits, and each bit above bit 7, from the top, is cleared by
adding the polynomial shifted to it; the source's vector. -/
def Obligations.MultiplyIsTheReducedProduct : Prop :=
  multiply 0x57 0x83 = 0xC1 ∧
  ∀ a b : Byte,
    multiply a b =
      ((List.range 8).foldl
        (fun (q : Byte × Byte) i => (if a.getLsbD i then q.1 ^^^ q.2 else q.1, double q.2)) (0x00, b)).1 ∧
    multiply a b =
      (([14, 13, 12, 11, 10, 9, 8] : List Nat).foldl
        (fun (c : BitVec 16) i => if c.getLsbD i then c ^^^ ((0x11B : BitVec 16) <<< (i - 8)) else c)
        ((List.range 8).foldl
          (fun (c : BitVec 16) i => if a.getLsbD i then c ^^^ (b.setWidth 16 <<< i) else c) 0)).setWidth 8

/-- 41_field_arithmetic.md R134: `inverse(a)` is the unique byte y with multiply(a, y) = 1 for a ≠ 0, it is 0 for 0, and it is a multiplied by itself
254 times. -/
def Obligations.InverseIsTheUniqueOne : Prop :=
  inverse 0x00 = 0x00 ∧
  (∀ a : Byte, a ≠ 0x00 → multiply a (inverse a) = 0x01 ∧ ∀ y : Byte, multiply a y = 0x01 → y = inverse a) ∧
  (∀ a : Byte, inverse a = (multiply a)^[254] 0x01)

/-- 42_sbox.md R150, R152, R154 and 43_key_schedule.md R171: the ROMs hold what their constructions give: SBOX the affine transform of the inverse (its
rotations are the spec's general knowledge, log 20), INVSBOX its inverse permutation, RCON the doublings of 1; and the S-box has no
fixed point and no opposite fixed point. -/
def Obligations.RomsHoldTheirConstruction : Prop :=
  (∀ b : Byte, subByte b = affine (inverse b)) ∧
  (∀ b : Byte, invSubByte (subByte b) = b ∧ subByte (invSubByte b) = b) ∧
  (∀ b : Byte, subByte b ≠ b ∧ subByte b ≠ b ^^^ 0xFF) ∧
  rcon 1 = 0x01 ∧ (∀ i, 1 ≤ i → i ≤ 9 → rcon (i + 1) = double (rcon i)) ∧ rcon 10 = 0x36

/-- 43_key_schedule.md R174: the 44 words of the expansion and the eleven round keys made of them. -/
def Obligations.ExpandFollowsTheRecurrence : Prop :=
  ∀ key : Block,
  (∀ (i : Fin 4) (b : Fin 4), (expandedWord key i.val)[b] = key[4 * i.val + b.val]) ∧
  (∀ i, 4 ≤ i → i < 44 → ∀ b : Fin 4, (expandedWord key i)[b] =
    (if i % 4 = 0 then
      (if b = 0 then subByte (expandedWord key (i - 1))[1] ^^^ rcon (i / 4)
       else if b = 1 then subByte (expandedWord key (i - 1))[2]
       else if b = 2 then subByte (expandedWord key (i - 1))[3]
       else subByte (expandedWord key (i - 1))[0])
     else (expandedWord key (i - 1))[b]) ^^^ (expandedWord key (i - 4))[b]) ∧
  (∀ (j : Fin 11) (k b : Fin 4), (expand key)[j][4 * k.val + b.val] = (expandedWord key (4 * j.val + k.val))[b])

/-- 43_key_schedule.md R175, R179: RK[0] is the key, so the expansion determines the key. -/
def Obligations.ExpandDeterminesTheKey : Prop :=
  (∀ key : Block, (expand key)[0] = key) ∧ (∀ k1 k2 : Block, expand k1 = expand k2 → k1 = k2)

/-- 44_round_transforms.md R192, R193: ShiftRows and InvShiftRows by their formulas and as the permutations P and Q. -/
def Obligations.ShiftRowsMovesRowsByTheirNumber : Prop :=
  ∀ s : Block,
  (∀ r c : Fin 4, (shiftRows s)[r.val + 4 * c.val] = s[r.val + 4 * ((c.val + r.val) % 4)]) ∧
  (∀ r c : Fin 4, (invShiftRows s)[r.val + 4 * ((c.val + r.val) % 4)] = s[r.val + 4 * c.val]) ∧
  (∀ k : Fin 16, (shiftRows s)[k] =
    s[(#v[0, 5, 10, 15, 4, 9, 14, 3, 8, 13, 2, 7, 12, 1, 6, 11] : Vector (Fin 16) 16)[k]]) ∧
  (∀ k : Fin 16, (invShiftRows s)[k] =
    s[(#v[0, 13, 10, 7, 4, 1, 14, 11, 8, 5, 2, 15, 12, 9, 6, 3] : Vector (Fin 16) 16)[k]])

/-- 44_round_transforms.md R195, R197: the columns of MixColumns and InvMixColumns, coefficient by coefficient (the direction of the circulants is the
spec's general knowledge, log 20). -/
def Obligations.MixColumnsCoefficients : Prop :=
  ∀ (s : Block) (c : Fin 4),
  (cell (mixColumns s) 0 c = double (cell s 0 c) ^^^ (double (cell s 1 c) ^^^ cell s 1 c) ^^^ cell s 2 c ^^^ cell s 3 c) ∧
  (cell (mixColumns s) 1 c = cell s 0 c ^^^ double (cell s 1 c) ^^^ (double (cell s 2 c) ^^^ cell s 2 c) ^^^ cell s 3 c) ∧
  (cell (mixColumns s) 2 c = cell s 0 c ^^^ cell s 1 c ^^^ double (cell s 2 c) ^^^ (double (cell s 3 c) ^^^ cell s 3 c)) ∧
  (cell (mixColumns s) 3 c = (double (cell s 0 c) ^^^ cell s 0 c) ^^^ cell s 1 c ^^^ cell s 2 c ^^^ double (cell s 3 c)) ∧
  (∀ r : Fin 4, cell (invMixColumns s) r c =
    multiply 0x0E (cell s r c) ^^^ multiply 0x0B (cell s (r + 1) c) ^^^ multiply 0x0D (cell s (r + 2) c) ^^^
      multiply 0x09 (cell s (r + 3) c))

/-- 44_round_transforms.md R193, R197, R198 and 42_sbox.md R154: every inverse transform undoes its transform, both ways. -/
def Obligations.TransformsInvert : Prop :=
  ∀ s k : Block,
  invShiftRows (shiftRows s) = s ∧ shiftRows (invShiftRows s) = s ∧
  invSubBytes (subBytes s) = s ∧ subBytes (invSubBytes s) = s ∧
  invMixColumns (mixColumns s) = s ∧ mixColumns (invMixColumns s) = s ∧
  addRoundKey (addRoundKey s k) k = s

/-- 44_round_transforms.md R199: lane structure: the substitutions and AddRoundKey work byte by byte and the substitutions commute with the row
shifts; ShiftRows and InvShiftRows permute the bytes of each row, the same way whatever the block; MixColumns and InvMixColumns work column by
column. -/
def Obligations.LaneStructure : Prop :=
  (∀ s : Block, subBytes (shiftRows s) = shiftRows (subBytes s) ∧
    invSubBytes (invShiftRows s) = invShiftRows (invSubBytes s)) ∧
  (∀ (s t k l : Block) (j : Fin 16), s[j] = t[j] → (subBytes s)[j] = (subBytes t)[j] ∧
    (invSubBytes s)[j] = (invSubBytes t)[j] ∧ (k[j] = l[j] → (addRoundKey s k)[j] = (addRoundKey t l)[j])) ∧
  (∀ r : Fin 4, ∃ p q : Equiv.Perm (Fin 4), ∀ (s : Block) (c : Fin 4),
    cell (shiftRows s) r c = cell s r (p c) ∧ cell (invShiftRows s) r c = cell s r (q c)) ∧
  (∀ (s t : Block) (c : Fin 4), column s c = column t c →
    column (mixColumns s) c = column (mixColumns t) c ∧ column (invMixColumns s) c = column (invMixColumns t) c)

/-- 45_cipher.md R220, R221: Encrypt and Decrypt are the rule's loops over the rounds. -/
def Obligations.PipelinesFollowTheRounds : Prop :=
  ∀ (s : Block) (rk : RoundKeys),
  encrypt s rk =
    addRoundKey (shiftRows (subBytes (([1, 2, 3, 4, 5, 6, 7, 8, 9] : List (Fin 11)).foldl
      (fun b round => addRoundKey (mixColumns (shiftRows (subBytes b))) rk[round]) (addRoundKey s rk[0])))) rk[10] ∧
  decrypt s rk =
    addRoundKey (invSubBytes (invShiftRows (([9, 8, 7, 6, 5, 4, 3, 2, 1] : List (Fin 11)).foldl
      (fun b round => invMixColumns (addRoundKey (invSubBytes (invShiftRows b)) rk[round])) (addRoundKey s rk[10])))) rk[0]

/-- 45_cipher.md R224: for every block and any eleven round keys, Decrypt undoes Encrypt and Encrypt undoes Decrypt. -/
def Obligations.CipherRoundTrip : Prop :=
  ∀ (b : Block) (rk : RoundKeys), decrypt (encrypt b rk) rk = b ∧ encrypt (decrypt b rk) rk = b

/-- 45_cipher.md R226: for i in 1..10, `dec_stage[i]` of the ciphertext is what Encrypt held after the ShiftRows of its round i, and `dec_stage[0]` is the
plaintext. (`decStage c rk n` is `dec_stage[10 - n]`.) -/
def Obligations.DecryptStagesMirrorEncrypt : Prop :=
  ∀ (b : Block) (rk : RoundKeys),
  (∀ i, 1 ≤ i → i ≤ 10 → decStage (encrypt b rk) rk (10 - i) = shiftRows (subBytes (encStage b rk (i - 1)))) ∧
  decStage (encrypt b rk) rk 10 = b

/-- 46_padding.md R240, R241: what `pad` fills and what `checkPad` returns. -/
def Obligations.PadAndCheckPadByTheirRules : Prop :=
  (∀ (s : Block) (len : Nat) (k : Fin 16), len ≤ 16 →
    (k.val < len → (padBlock s len)[k] = s[k]) ∧ (len ≤ k.val → (padBlock s len)[k].toNat = 16 - len)) ∧
  (∀ s : Block, checkPad s ≤ 16 ∧
    (∀ n, 1 ≤ n → n ≤ 16 →
      (checkPad s = n ↔ s[15].toNat = n ∧ ∀ k : Fin 16, 16 - n ≤ k.val → s[k].toNat = n)))

/-- 46_padding.md R250: checkPad of a padded block gives the pad length, for every block and every length in 0..15; at 16 nothing is filled. -/
def Obligations.PadThenCheckPad : Prop :=
  (∀ (s : Block) (len : Nat), len ≤ 15 → checkPad (padBlock s len) = 16 - len) ∧ (∀ s : Block, padBlock s 16 = s)

/-- 46_padding.md R247, R248, R249: a byte stream of length L becomes L div 16 + 1 blocks, and decrypting them under the same round keys gives the
bytes back. The host's side is written as functions (log 18). -/
def Obligations.StreamRoundTrip : Prop :=
  ∀ (rk : RoundKeys) (bytes : List Byte),
  (encryptStream rk bytes).length = bytes.length / 16 + 1 ∧ decryptStream rk (encryptStream rk bytes) = bytes
end

