-- ==== Sys2Proof/Laws/State.lean ====
section
/-! SUPPORT. One lemma per field for each update of the registers or the state, so that no proof unfolds a record update. -/

namespace Sys2Proof.Machine

/-! ### raiseError -/

@[simp] theorem raiseError_key (c : ErrCode) (r : Regs) : (raiseError c r).key = r.key := rfl
@[simp] theorem raiseError_state (c : ErrCode) (r : Regs) : (raiseError c r).state = r.state := rfl
@[simp] theorem raiseError_rk (c : ErrCode) (r : Regs) : (raiseError c r).rk = r.rk := rfl
@[simp] theorem raiseError_len (c : ErrCode) (r : Regs) : (raiseError c r).len = r.len := rfl
@[simp] theorem raiseError_padn (c : ErrCode) (r : Regs) : (raiseError c r).padn = r.padn := rfl
@[simp] theorem raiseError_outlen (c : ErrCode) (r : Regs) : (raiseError c r).outlen = r.outlen := rfl
@[simp] theorem raiseError_rksel (c : ErrCode) (r : Regs) : (raiseError c r).rksel = r.rksel := rfl
@[simp] theorem raiseError_gfA (c : ErrCode) (r : Regs) : (raiseError c r).gfA = r.gfA := rfl
@[simp] theorem raiseError_gfB (c : ErrCode) (r : Regs) : (raiseError c r).gfB = r.gfB := rfl
@[simp] theorem raiseError_gfR (c : ErrCode) (r : Regs) : (raiseError c r).gfR = r.gfR := rfl
@[simp] theorem raiseError_dotlen (c : ErrCode) (r : Regs) : (raiseError c r).dotlen = r.dotlen := rfl
@[simp] theorem raiseError_dota (c : ErrCode) (r : Regs) : (raiseError c r).dota = r.dota := rfl
@[simp] theorem raiseError_dotb (c : ErrCode) (r : Regs) : (raiseError c r).dotb = r.dotb := rfl
@[simp] theorem raiseError_busy (c : ErrCode) (r : Regs) : (raiseError c r).busy = r.busy := rfl
@[simp] theorem raiseError_done (c : ErrCode) (r : Regs) : (raiseError c r).done = r.done := rfl
@[simp] theorem raiseError_err (c : ErrCode) (r : Regs) : (raiseError c r).err = true := rfl
@[simp] theorem raiseError_keyv (c : ErrCode) (r : Regs) : (raiseError c r).keyv = r.keyv := rfl
@[simp] theorem raiseError_padv (c : ErrCode) (r : Regs) : (raiseError c r).padv = r.padv := rfl
@[simp] theorem raiseError_errcode (c : ErrCode) (r : Regs) : (raiseError c r).errcode = errorCode c := rfl
@[simp] theorem raiseError_pend (c : ErrCode) (r : Regs) : (raiseError c r).pend = r.pend := rfl

/-! ### statusWrite -/

@[simp] theorem statusWrite_key (v : Byte) (r : Regs) : (statusWrite v r).key = r.key := rfl
@[simp] theorem statusWrite_state (v : Byte) (r : Regs) : (statusWrite v r).state = r.state := rfl
@[simp] theorem statusWrite_rk (v : Byte) (r : Regs) : (statusWrite v r).rk = r.rk := rfl
@[simp] theorem statusWrite_len (v : Byte) (r : Regs) : (statusWrite v r).len = r.len := rfl
@[simp] theorem statusWrite_padn (v : Byte) (r : Regs) : (statusWrite v r).padn = r.padn := rfl
@[simp] theorem statusWrite_outlen (v : Byte) (r : Regs) : (statusWrite v r).outlen = r.outlen := rfl
@[simp] theorem statusWrite_rksel (v : Byte) (r : Regs) : (statusWrite v r).rksel = r.rksel := rfl
@[simp] theorem statusWrite_gfA (v : Byte) (r : Regs) : (statusWrite v r).gfA = r.gfA := rfl
@[simp] theorem statusWrite_gfB (v : Byte) (r : Regs) : (statusWrite v r).gfB = r.gfB := rfl
@[simp] theorem statusWrite_gfR (v : Byte) (r : Regs) : (statusWrite v r).gfR = r.gfR := rfl
@[simp] theorem statusWrite_dotlen (v : Byte) (r : Regs) : (statusWrite v r).dotlen = r.dotlen := rfl
@[simp] theorem statusWrite_dota (v : Byte) (r : Regs) : (statusWrite v r).dota = r.dota := rfl
@[simp] theorem statusWrite_dotb (v : Byte) (r : Regs) : (statusWrite v r).dotb = r.dotb := rfl
@[simp] theorem statusWrite_busy (v : Byte) (r : Regs) : (statusWrite v r).busy = r.busy := rfl
@[simp] theorem statusWrite_done (v : Byte) (r : Regs) : (statusWrite v r).done = (r.done && !v.getLsbD 1) := rfl
@[simp] theorem statusWrite_err (v : Byte) (r : Regs) : (statusWrite v r).err = (r.err && !v.getLsbD 2) := rfl
@[simp] theorem statusWrite_keyv (v : Byte) (r : Regs) : (statusWrite v r).keyv = r.keyv := rfl
@[simp] theorem statusWrite_padv (v : Byte) (r : Regs) : (statusWrite v r).padv = r.padv := rfl
@[simp] theorem statusWrite_errcode (v : Byte) (r : Regs) : (statusWrite v r).errcode = (if v.getLsbD 2 then 0x00 else r.errcode) := rfl
@[simp] theorem statusWrite_pend (v : Byte) (r : Regs) : (statusWrite v r).pend = r.pend := rfl

/-! ### clearDone -/

@[simp] theorem clearDone_key (r : Regs) : (clearDone r).key = r.key := rfl
@[simp] theorem clearDone_state (r : Regs) : (clearDone r).state = r.state := rfl
@[simp] theorem clearDone_rk (r : Regs) : (clearDone r).rk = r.rk := rfl
@[simp] theorem clearDone_len (r : Regs) : (clearDone r).len = r.len := rfl
@[simp] theorem clearDone_padn (r : Regs) : (clearDone r).padn = r.padn := rfl
@[simp] theorem clearDone_outlen (r : Regs) : (clearDone r).outlen = r.outlen := rfl
@[simp] theorem clearDone_rksel (r : Regs) : (clearDone r).rksel = r.rksel := rfl
@[simp] theorem clearDone_gfA (r : Regs) : (clearDone r).gfA = r.gfA := rfl
@[simp] theorem clearDone_gfB (r : Regs) : (clearDone r).gfB = r.gfB := rfl
@[simp] theorem clearDone_gfR (r : Regs) : (clearDone r).gfR = r.gfR := rfl
@[simp] theorem clearDone_dotlen (r : Regs) : (clearDone r).dotlen = r.dotlen := rfl
@[simp] theorem clearDone_dota (r : Regs) : (clearDone r).dota = r.dota := rfl
@[simp] theorem clearDone_dotb (r : Regs) : (clearDone r).dotb = r.dotb := rfl
@[simp] theorem clearDone_busy (r : Regs) : (clearDone r).busy = r.busy := rfl
@[simp] theorem clearDone_done (r : Regs) : (clearDone r).done = false := rfl
@[simp] theorem clearDone_err (r : Regs) : (clearDone r).err = r.err := rfl
@[simp] theorem clearDone_keyv (r : Regs) : (clearDone r).keyv = r.keyv := rfl
@[simp] theorem clearDone_padv (r : Regs) : (clearDone r).padv = r.padv := rfl
@[simp] theorem clearDone_errcode (r : Regs) : (clearDone r).errcode = r.errcode := rfl
@[simp] theorem clearDone_pend (r : Regs) : (clearDone r).pend = r.pend := rfl

/-! ### reject -/

@[simp] theorem reject_key (c : ErrCode) (r : Regs) : (reject c r).key = r.key := rfl
@[simp] theorem reject_state (c : ErrCode) (r : Regs) : (reject c r).state = r.state := rfl
@[simp] theorem reject_rk (c : ErrCode) (r : Regs) : (reject c r).rk = r.rk := rfl
@[simp] theorem reject_len (c : ErrCode) (r : Regs) : (reject c r).len = r.len := rfl
@[simp] theorem reject_padn (c : ErrCode) (r : Regs) : (reject c r).padn = r.padn := rfl
@[simp] theorem reject_outlen (c : ErrCode) (r : Regs) : (reject c r).outlen = r.outlen := rfl
@[simp] theorem reject_rksel (c : ErrCode) (r : Regs) : (reject c r).rksel = r.rksel := rfl
@[simp] theorem reject_gfA (c : ErrCode) (r : Regs) : (reject c r).gfA = r.gfA := rfl
@[simp] theorem reject_gfB (c : ErrCode) (r : Regs) : (reject c r).gfB = r.gfB := rfl
@[simp] theorem reject_gfR (c : ErrCode) (r : Regs) : (reject c r).gfR = r.gfR := rfl
@[simp] theorem reject_dotlen (c : ErrCode) (r : Regs) : (reject c r).dotlen = r.dotlen := rfl
@[simp] theorem reject_dota (c : ErrCode) (r : Regs) : (reject c r).dota = r.dota := rfl
@[simp] theorem reject_dotb (c : ErrCode) (r : Regs) : (reject c r).dotb = r.dotb := rfl
@[simp] theorem reject_busy (c : ErrCode) (r : Regs) : (reject c r).busy = r.busy := rfl
@[simp] theorem reject_done (c : ErrCode) (r : Regs) : (reject c r).done = false := rfl
@[simp] theorem reject_err (c : ErrCode) (r : Regs) : (reject c r).err = true := rfl
@[simp] theorem reject_keyv (c : ErrCode) (r : Regs) : (reject c r).keyv = r.keyv := rfl
@[simp] theorem reject_padv (c : ErrCode) (r : Regs) : (reject c r).padv = r.padv := rfl
@[simp] theorem reject_errcode (c : ErrCode) (r : Regs) : (reject c r).errcode = errorCode c := rfl
@[simp] theorem reject_pend (c : ErrCode) (r : Regs) : (reject c r).pend = r.pend := rfl

/-! ### accept -/

@[simp] theorem accept_key (i : Instr) (r : Regs) : (accept i r).key = r.key := rfl
@[simp] theorem accept_state (i : Instr) (r : Regs) : (accept i r).state = r.state := rfl
@[simp] theorem accept_rk (i : Instr) (r : Regs) : (accept i r).rk = r.rk := rfl
@[simp] theorem accept_len (i : Instr) (r : Regs) : (accept i r).len = r.len := rfl
@[simp] theorem accept_padn (i : Instr) (r : Regs) : (accept i r).padn = r.padn := rfl
@[simp] theorem accept_outlen (i : Instr) (r : Regs) : (accept i r).outlen = r.outlen := rfl
@[simp] theorem accept_rksel (i : Instr) (r : Regs) : (accept i r).rksel = r.rksel := rfl
@[simp] theorem accept_gfA (i : Instr) (r : Regs) : (accept i r).gfA = r.gfA := rfl
@[simp] theorem accept_gfB (i : Instr) (r : Regs) : (accept i r).gfB = r.gfB := rfl
@[simp] theorem accept_gfR (i : Instr) (r : Regs) : (accept i r).gfR = r.gfR := rfl
@[simp] theorem accept_dotlen (i : Instr) (r : Regs) : (accept i r).dotlen = r.dotlen := rfl
@[simp] theorem accept_dota (i : Instr) (r : Regs) : (accept i r).dota = r.dota := rfl
@[simp] theorem accept_dotb (i : Instr) (r : Regs) : (accept i r).dotb = r.dotb := rfl
@[simp] theorem accept_busy (i : Instr) (r : Regs) : (accept i r).busy = true := rfl
@[simp] theorem accept_done (i : Instr) (r : Regs) : (accept i r).done = false := rfl
@[simp] theorem accept_err (i : Instr) (r : Regs) : (accept i r).err = r.err := rfl
@[simp] theorem accept_keyv (i : Instr) (r : Regs) : (accept i r).keyv = r.keyv := rfl
@[simp] theorem accept_padv (i : Instr) (r : Regs) : (accept i r).padv = r.padv := rfl
@[simp] theorem accept_errcode (i : Instr) (r : Regs) : (accept i r).errcode = r.errcode := rfl
@[simp] theorem accept_pend (i : Instr) (r : Regs) : (accept i r).pend = some i := rfl

/-! ### complete -/

@[simp] theorem complete_key (r : Regs) : (complete r).key = r.key := rfl
@[simp] theorem complete_state (r : Regs) : (complete r).state = r.state := rfl
@[simp] theorem complete_rk (r : Regs) : (complete r).rk = r.rk := rfl
@[simp] theorem complete_len (r : Regs) : (complete r).len = r.len := rfl
@[simp] theorem complete_padn (r : Regs) : (complete r).padn = r.padn := rfl
@[simp] theorem complete_outlen (r : Regs) : (complete r).outlen = r.outlen := rfl
@[simp] theorem complete_rksel (r : Regs) : (complete r).rksel = r.rksel := rfl
@[simp] theorem complete_gfA (r : Regs) : (complete r).gfA = r.gfA := rfl
@[simp] theorem complete_gfB (r : Regs) : (complete r).gfB = r.gfB := rfl
@[simp] theorem complete_gfR (r : Regs) : (complete r).gfR = r.gfR := rfl
@[simp] theorem complete_dotlen (r : Regs) : (complete r).dotlen = r.dotlen := rfl
@[simp] theorem complete_dota (r : Regs) : (complete r).dota = r.dota := rfl
@[simp] theorem complete_dotb (r : Regs) : (complete r).dotb = r.dotb := rfl
@[simp] theorem complete_busy (r : Regs) : (complete r).busy = false := rfl
@[simp] theorem complete_done (r : Regs) : (complete r).done = true := rfl
@[simp] theorem complete_err (r : Regs) : (complete r).err = r.err := rfl
@[simp] theorem complete_keyv (r : Regs) : (complete r).keyv = r.keyv := rfl
@[simp] theorem complete_padv (r : Regs) : (complete r).padv = r.padv := rfl
@[simp] theorem complete_errcode (r : Regs) : (complete r).errcode = r.errcode := rfl
@[simp] theorem complete_pend (r : Regs) : (complete r).pend = none := rfl

/-! ### setPadResult -/

@[simp] theorem setPadResult_key (b : Block) (r : Regs) : (setPadResult b r).key = r.key := rfl
@[simp] theorem setPadResult_state (b : Block) (r : Regs) : (setPadResult b r).state = r.state := rfl
@[simp] theorem setPadResult_rk (b : Block) (r : Regs) : (setPadResult b r).rk = r.rk := rfl
@[simp] theorem setPadResult_len (b : Block) (r : Regs) : (setPadResult b r).len = r.len := rfl
@[simp] theorem setPadResult_padn (b : Block) (r : Regs) : (setPadResult b r).padn = BitVec.ofNat 8 (checkPad b) := rfl
@[simp] theorem setPadResult_outlen (b : Block) (r : Regs) : (setPadResult b r).outlen = (if checkPad b != 0 then BitVec.ofNat 8 (16 - checkPad b) else 16) := rfl
@[simp] theorem setPadResult_rksel (b : Block) (r : Regs) : (setPadResult b r).rksel = r.rksel := rfl
@[simp] theorem setPadResult_gfA (b : Block) (r : Regs) : (setPadResult b r).gfA = r.gfA := rfl
@[simp] theorem setPadResult_gfB (b : Block) (r : Regs) : (setPadResult b r).gfB = r.gfB := rfl
@[simp] theorem setPadResult_gfR (b : Block) (r : Regs) : (setPadResult b r).gfR = r.gfR := rfl
@[simp] theorem setPadResult_dotlen (b : Block) (r : Regs) : (setPadResult b r).dotlen = r.dotlen := rfl
@[simp] theorem setPadResult_dota (b : Block) (r : Regs) : (setPadResult b r).dota = r.dota := rfl
@[simp] theorem setPadResult_dotb (b : Block) (r : Regs) : (setPadResult b r).dotb = r.dotb := rfl
@[simp] theorem setPadResult_busy (b : Block) (r : Regs) : (setPadResult b r).busy = r.busy := rfl
@[simp] theorem setPadResult_done (b : Block) (r : Regs) : (setPadResult b r).done = r.done := rfl
@[simp] theorem setPadResult_err (b : Block) (r : Regs) : (setPadResult b r).err = r.err := rfl
@[simp] theorem setPadResult_keyv (b : Block) (r : Regs) : (setPadResult b r).keyv = r.keyv := rfl
@[simp] theorem setPadResult_padv (b : Block) (r : Regs) : (setPadResult b r).padv = (checkPad b != 0) := rfl
@[simp] theorem setPadResult_errcode (b : Block) (r : Regs) : (setPadResult b r).errcode = r.errcode := rfl
@[simp] theorem setPadResult_pend (b : Block) (r : Regs) : (setPadResult b r).pend = r.pend := rfl

/-! ### replaceState -/

@[simp] theorem replaceState_key (f : Block → Block) (r : Regs) : (replaceState f r).key = r.key := rfl
@[simp] theorem replaceState_state (f : Block → Block) (r : Regs) : (replaceState f r).state = f r.state := rfl
@[simp] theorem replaceState_rk (f : Block → Block) (r : Regs) : (replaceState f r).rk = r.rk := rfl
@[simp] theorem replaceState_len (f : Block → Block) (r : Regs) : (replaceState f r).len = r.len := rfl
@[simp] theorem replaceState_padn (f : Block → Block) (r : Regs) : (replaceState f r).padn = r.padn := rfl
@[simp] theorem replaceState_outlen (f : Block → Block) (r : Regs) : (replaceState f r).outlen = r.outlen := rfl
@[simp] theorem replaceState_rksel (f : Block → Block) (r : Regs) : (replaceState f r).rksel = r.rksel := rfl
@[simp] theorem replaceState_gfA (f : Block → Block) (r : Regs) : (replaceState f r).gfA = r.gfA := rfl
@[simp] theorem replaceState_gfB (f : Block → Block) (r : Regs) : (replaceState f r).gfB = r.gfB := rfl
@[simp] theorem replaceState_gfR (f : Block → Block) (r : Regs) : (replaceState f r).gfR = r.gfR := rfl
@[simp] theorem replaceState_dotlen (f : Block → Block) (r : Regs) : (replaceState f r).dotlen = r.dotlen := rfl
@[simp] theorem replaceState_dota (f : Block → Block) (r : Regs) : (replaceState f r).dota = r.dota := rfl
@[simp] theorem replaceState_dotb (f : Block → Block) (r : Regs) : (replaceState f r).dotb = r.dotb := rfl
@[simp] theorem replaceState_busy (f : Block → Block) (r : Regs) : (replaceState f r).busy = r.busy := rfl
@[simp] theorem replaceState_done (f : Block → Block) (r : Regs) : (replaceState f r).done = r.done := rfl
@[simp] theorem replaceState_err (f : Block → Block) (r : Regs) : (replaceState f r).err = r.err := rfl
@[simp] theorem replaceState_keyv (f : Block → Block) (r : Regs) : (replaceState f r).keyv = r.keyv := rfl
@[simp] theorem replaceState_padv (f : Block → Block) (r : Regs) : (replaceState f r).padv = r.padv := rfl
@[simp] theorem replaceState_errcode (f : Block → Block) (r : Regs) : (replaceState f r).errcode = r.errcode := rfl
@[simp] theorem replaceState_pend (f : Block → Block) (r : Regs) : (replaceState f r).pend = r.pend := rfl

/-! ### setRegs -/

@[simp] theorem setRegs_regs (s : State) (r : Regs) : (s.setRegs r).regs = r := rfl
@[simp] theorem setRegs_program (s : State) (r : Regs) : (s.setRegs r).program = s.program := rfl
@[simp] theorem setRegs_sched (s : State) (r : Regs) : (s.setRegs r).sched = s.sched := rfl
@[simp] theorem setRegs_reads (s : State) (r : Regs) : (s.setRegs r).reads = s.reads := rfl
@[simp] theorem setRegs_draws (s : State) (r : Regs) : (s.setRegs r).draws = s.draws := rfl

end Sys2Proof.Machine
end

