-- ==== Sys2Proof/Laws/Ops.lean ====
section
/-! SUPPORT. What each shared operation can do, said once: the lifecycle of a command, a bus read, a bus write. -/

namespace Sys2Proof.Machine

/-- `Perform(op)` (40_command_lifecycle.md R115): the effect of each command at its CORE step. -/
def perform : Instr → Regs → Regs
  | .nop => performNop
  | .keyexp => performKeyexp
  | .keyclr => performKeyclr
  | .enc => performEnc
  | .dec => performDec
  | .encf => performEncf
  | .decf => performDecf
  | .pad => performPad
  | .chkpad => performChkpad
  | .gfmul => performGfmul
  | .xtime => performXtime
  | .dot => performDot
  | .sbox => performSbox
  | .isbox => performIsbox
  | .subbytes => replaceState subBytes
  | .shiftrows => replaceState shiftRows
  | .mixcol => replaceState mixColumns
  | .addrk => performAddrk
  | .invsubbytes => replaceState invSubBytes
  | .invshiftrows => replaceState invShiftRows
  | .invmixcol => replaceState invMixColumns

/-- Every meaning is the shared lifecycle over its own effect. -/
theorem exec_eq_command (i : Instr) (s : State) : exec i s = command i (perform i) s := by
  cases i <;> rfl

/-! ### What an effect leaves alone (10_state.md R45) -/

/-- An effect writes no register but KEY, STATE, RK, PADN, OUTLEN, GF_R, KEYV and PADV. -/
theorem perform_frame (i : Instr) (r : Regs) : perform i r = { r with
    key := (perform i r).key
    state := (perform i r).state
    rk := (perform i r).rk
    padn := (perform i r).padn
    outlen := (perform i r).outlen
    gfR := (perform i r).gfR
    keyv := (perform i r).keyv
    padv := (perform i r).padv } := by
  obtain ⟨⟩ := r
  cases i <;> rfl

@[simp] theorem perform_len (i : Instr) (r : Regs) : (perform i r).len = r.len := by
  rw [perform_frame]

@[simp] theorem perform_rksel (i : Instr) (r : Regs) : (perform i r).rksel = r.rksel := by
  rw [perform_frame]

@[simp] theorem perform_gfA (i : Instr) (r : Regs) : (perform i r).gfA = r.gfA := by
  rw [perform_frame]

@[simp] theorem perform_gfB (i : Instr) (r : Regs) : (perform i r).gfB = r.gfB := by
  rw [perform_frame]

@[simp] theorem perform_dotlen (i : Instr) (r : Regs) : (perform i r).dotlen = r.dotlen := by
  rw [perform_frame]

@[simp] theorem perform_dota (i : Instr) (r : Regs) : (perform i r).dota = r.dota := by
  rw [perform_frame]

@[simp] theorem perform_dotb (i : Instr) (r : Regs) : (perform i r).dotb = r.dotb := by
  rw [perform_frame]

@[simp] theorem perform_busy (i : Instr) (r : Regs) : (perform i r).busy = r.busy := by
  rw [perform_frame]

@[simp] theorem perform_done (i : Instr) (r : Regs) : (perform i r).done = r.done := by
  rw [perform_frame]

@[simp] theorem perform_err (i : Instr) (r : Regs) : (perform i r).err = r.err := by
  rw [perform_frame]

@[simp] theorem perform_errcode (i : Instr) (r : Regs) : (perform i r).errcode = r.errcode := by
  rw [perform_frame]

@[simp] theorem perform_pend (i : Instr) (r : Regs) : (perform i r).pend = r.pend := by
  rw [perform_frame]

theorem perform_key {i : Instr} (r : Regs) (h1 : i ≠ .keyclr) : (perform i r).key = r.key := by
  obtain ⟨⟩ := r
  cases i <;> first | contradiction | rfl

theorem perform_rk {i : Instr} (r : Regs) (h1 : i ≠ .keyexp) (h2 : i ≠ .keyclr) : (perform i r).rk = r.rk := by
  obtain ⟨⟩ := r
  cases i <;> first | contradiction | rfl

theorem perform_keyv {i : Instr} (r : Regs) (h1 : i ≠ .keyexp) (h2 : i ≠ .keyclr) : (perform i r).keyv = r.keyv := by
  obtain ⟨⟩ := r
  cases i <;> first | contradiction | rfl

theorem perform_padn {i : Instr} (r : Regs) (h1 : i ≠ .chkpad) (h2 : i ≠ .decf) : (perform i r).padn = r.padn := by
  obtain ⟨⟩ := r
  cases i <;> first | contradiction | rfl

theorem perform_padv {i : Instr} (r : Regs) (h1 : i ≠ .chkpad) (h2 : i ≠ .decf) : (perform i r).padv = r.padv := by
  obtain ⟨⟩ := r
  cases i <;> first | contradiction | rfl

theorem perform_outlen {i : Instr} (r : Regs) (h1 : i ≠ .chkpad) (h2 : i ≠ .decf) : (perform i r).outlen = r.outlen := by
  obtain ⟨⟩ := r
  cases i <;> first | contradiction | rfl

theorem perform_gfR {i : Instr} (r : Regs) (h : i ∉ [Instr.gfmul, .xtime, .dot, .sbox, .isbox]) :
    (perform i r).gfR = r.gfR := by
  obtain ⟨⟩ := r
  cases i <;> first | (simp at h; done) | rfl

theorem perform_state {i : Instr} (r : Regs) (h : i ∉ [Instr.enc, .dec, .encf, .decf, .pad, .subbytes, .shiftrows, .mixcol, .addrk,
    .invsubbytes, .invshiftrows, .invmixcol]) :
    (perform i r).state = r.state := by
  obtain ⟨⟩ := r
  cases i <;> first | (simp at h; done) | rfl

theorem command_of_busy {i : Instr} {f : Regs → Regs} {s : State} (h : s.regs.busy = true) :
    command i f s = .next (s.setRegs (complete (f s.regs))) := by
  simp [command, h]

theorem command_of_idle {i : Instr} {f : Regs → Regs} {s : State} (h : s.regs.busy = false) :
    command i f s = .next (s.setRegs (issue i s.regs)) := by
  simp [command, h]

theorem exec_of_busy {i : Instr} {s : State} (h : s.regs.busy = true) :
    exec i s = .next (s.setRegs (complete (perform i s.regs))) := by
  rw [exec_eq_command, command_of_busy h]

theorem exec_of_idle {i : Instr} {s : State} (h : s.regs.busy = false) :
    exec i s = .next (s.setRegs (issue i s.regs)) := by
  rw [exec_eq_command, command_of_idle h]

/-- The issue of a command accepts it when its checks pass and rejects it with the first code that applies otherwise. -/
theorem issue_cases (i : Instr) (r : Regs) :
    (checkPreconditions i r = none ∧ issue i r = accept i r) ∨
      ∃ c, checkPreconditions i r = some c ∧ issue i r = reject c r := by
  unfold issue
  cases h : checkPreconditions i r with
  | none => exact .inl ⟨rfl, rfl⟩
  | some c => exact .inr ⟨c, rfl, rfl⟩

@[simp] theorem checkPreconditions_nop (r : Regs) : checkPreconditions .nop r = none := rfl

@[simp] theorem checkPreconditions_keyexp (r : Regs) : checkPreconditions .keyexp r = none := rfl

@[simp] theorem checkPreconditions_keyclr (r : Regs) : checkPreconditions .keyclr r = none := rfl

@[simp] theorem checkPreconditions_chkpad (r : Regs) : checkPreconditions .chkpad r = none := rfl

@[simp] theorem checkPreconditions_gfmul (r : Regs) : checkPreconditions .gfmul r = none := rfl

@[simp] theorem checkPreconditions_xtime (r : Regs) : checkPreconditions .xtime r = none := rfl

@[simp] theorem checkPreconditions_sbox (r : Regs) : checkPreconditions .sbox r = none := rfl

@[simp] theorem checkPreconditions_isbox (r : Regs) : checkPreconditions .isbox r = none := rfl

@[simp] theorem checkPreconditions_subbytes (r : Regs) : checkPreconditions .subbytes r = none := rfl

@[simp] theorem checkPreconditions_shiftrows (r : Regs) : checkPreconditions .shiftrows r = none := rfl

@[simp] theorem checkPreconditions_mixcol (r : Regs) : checkPreconditions .mixcol r = none := rfl

@[simp] theorem checkPreconditions_invsubbytes (r : Regs) : checkPreconditions .invsubbytes r = none := rfl

@[simp] theorem checkPreconditions_invshiftrows (r : Regs) : checkPreconditions .invshiftrows r = none := rfl

@[simp] theorem checkPreconditions_invmixcol (r : Regs) : checkPreconditions .invmixcol r = none := rfl

@[simp] theorem checkPreconditions_enc (r : Regs) : checkPreconditions .enc r = if r.keyv then none else some .noKey := by
  cases h : r.keyv <;> simp [checkPreconditions, checksOf, firstFailing, needKey, h]

@[simp] theorem checkPreconditions_dec (r : Regs) : checkPreconditions .dec r = if r.keyv then none else some .noKey := by
  cases h : r.keyv <;> simp [checkPreconditions, checksOf, firstFailing, needKey, h]

@[simp] theorem checkPreconditions_decf (r : Regs) : checkPreconditions .decf r = if r.keyv then none else some .noKey := by
  cases h : r.keyv <;> simp [checkPreconditions, checksOf, firstFailing, needKey, h]

@[simp] theorem checkPreconditions_encf (r : Regs) : checkPreconditions .encf r = if r.keyv then (if 15 < r.len.toNat then some .badLen else none) else some .noKey := by
  cases h : r.keyv <;> by_cases hl : 15 < r.len.toNat <;>
    simp [checkPreconditions, checksOf, firstFailing, needKey, lenAtMost, h, hl]

@[simp] theorem checkPreconditions_pad (r : Regs) : checkPreconditions .pad r = if 16 < r.len.toNat then some .badLen else none := by
  by_cases hl : 16 < r.len.toNat <;> simp [checkPreconditions, checksOf, firstFailing, lenAtMost, hl]

@[simp] theorem checkPreconditions_dot (r : Regs) : checkPreconditions .dot r = if 4 < r.dotlen.toNat then some .badDotlen else none := by
  by_cases hl : 4 < r.dotlen.toNat <;> simp [checkPreconditions, checksOf, firstFailing, dotlenAtMost4, hl]

@[simp] theorem checkPreconditions_addrk (r : Regs) : checkPreconditions .addrk r = if r.keyv then (if 10 < r.rksel.toNat then some .badRksel else none) else some .noKey := by
  cases h : r.keyv <;> by_cases hl : 10 < r.rksel.toNat <;>
    simp [checkPreconditions, checksOf, firstFailing, needKey, rkselAtMost10, h, hl]

@[simp] theorem busRead_regs (a : Byte) (s : State) : (busRead a s).2.regs = s.regs := by
  unfold busRead; split <;> rfl

@[simp] theorem busRead_program (a : Byte) (s : State) : (busRead a s).2.program = s.program := by
  unfold busRead; split <;> rfl

@[simp] theorem busRead_sched (a : Byte) (s : State) : (busRead a s).2.sched = s.sched := by
  unfold busRead; split <;> rfl

@[simp] theorem busRead_reads (a : Byte) (s : State) : (busRead a s).2.reads = s.reads := by
  unfold busRead; split <;> rfl

@[simp] theorem hostRead_regs (a : Byte) (s : State) : (hostRead a s).2.regs = s.regs := by
  simp [hostRead]

@[simp] theorem hostRead_program (a : Byte) (s : State) : (hostRead a s).2.program = s.program := by
  simp [hostRead]

@[simp] theorem hostRead_sched (a : Byte) (s : State) : (hostRead a s).2.sched = s.sched := by
  simp [hostRead]

@[simp] theorem hostRead_reads (a : Byte) (s : State) :
    (hostRead a s).2.reads = s.reads ++ [(busRead a s).1] := by
  simp [hostRead]

/-- The STATUS address is never owned by a pending command, so a read of it is exact. -/
theorem pendingOwns_status (r : Regs) : pendingOwns r .status = false := by
  unfold pendingOwns
  cases r.pend with
  | none => simp
  | some i => cases i <;> simp [readSet, isKey, isState, isRkwin, isPadResult]

theorem portOf_status : portOf 0x21 = .status := rfl

theorem portOf_cmd : portOf 0x20 = .cmd := rfl

theorem busRead_status (s : State) : busRead 0x21 s = (statusByte s.regs, s) := by
  rw [busRead, portOf_status, pendingOwns_status]
  rfl

@[simp] theorem statusByte_busy (r : Regs) : (statusByte r).getLsbD 0 = r.busy := by
  unfold statusByte
  generalize r.busy = b0; generalize r.done = b1; generalize r.err = b2; generalize r.keyv = b3
  generalize r.padv = b4
  revert b0 b1 b2 b3 b4; decide

end Sys2Proof.Machine
end

