-- ==== Sys2Proof/Laws/PerInstr.lean ====
section
/-! SUPPORT. Facts about every command as syntax, one lemma per constructor. -/

/-- A command is well formed, its byte lies outside the illegal ranges (30_encoding.md R94), and decodeTableWord reads the command
back from its table word. -/
def Sys2Proof.Laws.Opcode.Statement (i : Sys2Proof.Instr) : Prop :=
  i.wellFormed = true ∧ Sys2Proof.legalOpcode (Sys2Proof.encode i) = true ∧
    Sys2Proof.decodeTableWord 8 (Sys2Proof.encode i).toNat = some i

theorem Sys2Proof.Laws.Opcode.nop : Sys2Proof.Laws.Opcode.Statement .nop := ⟨rfl, rfl, rfl⟩
theorem Sys2Proof.Laws.Opcode.keyexp : Sys2Proof.Laws.Opcode.Statement .keyexp := ⟨rfl, rfl, rfl⟩
theorem Sys2Proof.Laws.Opcode.keyclr : Sys2Proof.Laws.Opcode.Statement .keyclr := ⟨rfl, rfl, rfl⟩
theorem Sys2Proof.Laws.Opcode.enc : Sys2Proof.Laws.Opcode.Statement .enc := ⟨rfl, rfl, rfl⟩
theorem Sys2Proof.Laws.Opcode.dec : Sys2Proof.Laws.Opcode.Statement .dec := ⟨rfl, rfl, rfl⟩
theorem Sys2Proof.Laws.Opcode.encf : Sys2Proof.Laws.Opcode.Statement .encf := ⟨rfl, rfl, rfl⟩
theorem Sys2Proof.Laws.Opcode.decf : Sys2Proof.Laws.Opcode.Statement .decf := ⟨rfl, rfl, rfl⟩
theorem Sys2Proof.Laws.Opcode.pad : Sys2Proof.Laws.Opcode.Statement .pad := ⟨rfl, rfl, rfl⟩
theorem Sys2Proof.Laws.Opcode.chkpad : Sys2Proof.Laws.Opcode.Statement .chkpad := ⟨rfl, rfl, rfl⟩
theorem Sys2Proof.Laws.Opcode.gfmul : Sys2Proof.Laws.Opcode.Statement .gfmul := ⟨rfl, rfl, rfl⟩
theorem Sys2Proof.Laws.Opcode.xtime : Sys2Proof.Laws.Opcode.Statement .xtime := ⟨rfl, rfl, rfl⟩
theorem Sys2Proof.Laws.Opcode.dot : Sys2Proof.Laws.Opcode.Statement .dot := ⟨rfl, rfl, rfl⟩
theorem Sys2Proof.Laws.Opcode.sbox : Sys2Proof.Laws.Opcode.Statement .sbox := ⟨rfl, rfl, rfl⟩
theorem Sys2Proof.Laws.Opcode.isbox : Sys2Proof.Laws.Opcode.Statement .isbox := ⟨rfl, rfl, rfl⟩
theorem Sys2Proof.Laws.Opcode.subbytes : Sys2Proof.Laws.Opcode.Statement .subbytes := ⟨rfl, rfl, rfl⟩
theorem Sys2Proof.Laws.Opcode.shiftrows : Sys2Proof.Laws.Opcode.Statement .shiftrows := ⟨rfl, rfl, rfl⟩
theorem Sys2Proof.Laws.Opcode.mixcol : Sys2Proof.Laws.Opcode.Statement .mixcol := ⟨rfl, rfl, rfl⟩
theorem Sys2Proof.Laws.Opcode.addrk : Sys2Proof.Laws.Opcode.Statement .addrk := ⟨rfl, rfl, rfl⟩
theorem Sys2Proof.Laws.Opcode.invsubbytes : Sys2Proof.Laws.Opcode.Statement .invsubbytes := ⟨rfl, rfl, rfl⟩
theorem Sys2Proof.Laws.Opcode.invshiftrows : Sys2Proof.Laws.Opcode.Statement .invshiftrows := ⟨rfl, rfl, rfl⟩
theorem Sys2Proof.Laws.Opcode.invmixcol : Sys2Proof.Laws.Opcode.Statement .invmixcol := ⟨rfl, rfl, rfl⟩
end

