-- ==== Sys2Proof/Laws/Step.lean ====
section
/-! SUPPORT. What one bus write and one step can do to the registers, said once (20_memory.md R66, 00_scope.md R13): every
invariant is derived from it. -/

namespace Sys2Proof.Machine

theorem portOf_eq_status (a : Byte) : portOf a = .status ↔ a = 0x21 := by
  revert a; decide +kernel

theorem portOf_eq_cmd (a : Byte) : portOf a = .cmd ↔ a = 0x20 := by
  revert a; decide +kernel

theorem portOf_isKey (a : Byte) : isKey (portOf a) = true ↔ a.toNat ≤ 0x0F := by
  revert a; decide +kernel

/-- The changes of the registers `BusWrite(a, v)` can make. -/
inductive WriteEffect (r : Regs) (a v : Byte) : Regs → Prop where
  | ignored : WriteEffect r a v r
  | statusWritten (addr : a = 0x21) : WriteEffect r a v (statusWrite v r)
  | dropped (busy : r.busy = true) (writable : hostWritable (portOf a) = true) :
      WriteEffect r a v (raiseError .busyWrite r)
  | stored (idle : r.busy = false) (writable : hostWritable (portOf a) = true) (other : portOf a ≠ .cmd) :
      WriteEffect r a v (poke r v (portOf a))
  | rejected (c : ErrCode) (addr : a = 0x20) (idle : r.busy = false) : WriteEffect r a v (reject c r)
  | accepted (i : Instr) (addr : a = 0x20) (idle : r.busy = false) (decoded : decode v = .ok i)
      (checked : checkPreconditions i r = none) : WriteEffect r a v (accept i r)

/-- A bus write always answers a next state that differs in its registers alone. -/
theorem busWrite_cases (a v : Byte) (s : State) :
    ∃ r, busWrite a v s = .next (s.setRegs r) ∧ WriteEffect s.regs a v r := by
  simp only [busWrite]
  by_cases hst : portOf a = .status
  · exact ⟨_, if_pos hst, .statusWritten ((portOf_eq_status a).1 hst)⟩
  rw [if_neg hst]
  cases hw : hostWritable (portOf a) with
  | false => exact ⟨s.regs, by simp [State.setRegs], .ignored⟩
  | true =>
    cases hb : s.regs.busy with
    | true => exact ⟨_, by simp, .dropped hb hw⟩
    | false =>
      by_cases hc : portOf a = .cmd
      · have ha := (portOf_eq_cmd a).1 hc
        simp only [hc, Bool.not_true, Bool.false_eq_true, if_false, if_true, issueCommand]
        cases hd : decode v with
        | ok i =>
          refine ⟨_, exec_of_idle hb, ?_⟩
          rcases issue_cases i s.regs with ⟨hck, he⟩ | ⟨c, -, he⟩
          · exact he ▸ .accepted i ha hb hd hck
          · exact he ▸ .rejected c ha hb
        | error c => exact ⟨_, rfl, .rejected c ha hb⟩
      · exact ⟨_, by simp [hc], .stored hb hw hc⟩

/-- The changes of the registers one step can make, and who makes them. -/
inductive RegsStep (s : State) : Regs → Prop where
  | same : RegsStep s s.regs
  | reset (turn : turnOf s = .reset) : RegsStep s Regs.reset
  | completed (turn : turnOf s = .core) (i : Instr) (busy : s.regs.busy = true) (pend : s.regs.pend = some i) :
      RegsStep s (complete (perform i s.regs))
  | completedNothing (turn : turnOf s = .core) (busy : s.regs.busy = true) (pend : s.regs.pend = none) :
      RegsStep s (complete s.regs)
  | written (turn : turnOf s = .host) (a v : Byte) (rest : List HostStmt) (next : s.program = .bus (.wr a v) :: rest)
      (r : Regs) (effect : WriteEffect s.regs a v r) : RegsStep s r

/-- A CORE step answers a next state that differs in its registers alone. -/
theorem coreStep_cases (s : State) : ∃ r, coreStep s = .next (s.setRegs r) ∧
    ((s.regs.busy = false ∧ r = s.regs) ∨ (s.regs.busy = true ∧ s.regs.pend = none ∧ r = complete s.regs) ∨
      ∃ i, s.regs.busy = true ∧ s.regs.pend = some i ∧ r = complete (perform i s.regs)) := by
  unfold coreStep
  cases hb : s.regs.busy with
  | false => exact ⟨s.regs, by simp [State.setRegs], .inl ⟨rfl, rfl⟩⟩
  | true =>
    cases hp : s.regs.pend with
    | none => exact ⟨_, by simp, .inr (.inl ⟨rfl, rfl, rfl⟩)⟩
    | some i => exact ⟨_, by simp [exec_of_busy hb], .inr (.inr ⟨i, rfl, rfl, rfl⟩)⟩

/-- One step changes the registers in one of the ways of `RegsStep`. -/
theorem step_cases (s : State) : ∃ t, step s = .next t ∧ RegsStep s t.regs := by
  simp only [step, nextTurn]
  cases ht : turnOf s with
  | reset => exact ⟨_, rfl, .reset ht⟩
  | core =>
    obtain ⟨r, he, hr⟩ := coreStep_cases { s with sched := s.sched.tail }
    refine ⟨_, he, ?_⟩
    rcases hr with ⟨-, hr⟩ | ⟨hb, hp, hr⟩ | ⟨i, hb, hp, hr⟩
    · subst hr; exact .same
    · subst hr; exact .completedNothing ht hb hp
    · subst hr; exact .completed ht i hb hp
  | host =>
    simp only [takeTurn]
    cases hp : s.program with
    | nil => exact ⟨_, rfl, .same⟩
    | cons stmt rest =>
      match stmt with
      | .bus (.wr a v) =>
        obtain ⟨r, he, hr⟩ := busWrite_cases a v { s with program := rest, sched := s.sched.tail }
        exact ⟨_, he, .written ht a v rest hp r hr⟩
      | .bus (.rd a) => exact ⟨_, rfl, by simpa using .same⟩
      | .poll =>
        simp only [hostStep]
        split
        · exact ⟨_, rfl, by simpa using .same⟩
        · exact ⟨_, rfl, by simpa using .same⟩

/-- The registers after a step, in the form that takes apart by cases. -/
theorem step_regs {s t : State} (h : step s = .next t) : ∃ r, RegsStep s r ∧ t.regs = r := by
  obtain ⟨u, hu, hr⟩ := step_cases s
  rw [h] at hu
  cases hu
  exact ⟨_, hr, rfl⟩

/-- A run goes on from the next state of its first step. -/
theorem run_of_next {M : Host.Core} {n : Nat} {s t : M.State} (h : M.step s = .next t) : M.run (n + 1) s = M.run n t := by
  rw [Host.Core.run, h]

/-- Every command's byte decodes to it (30_encoding.md R92). -/
theorem decode_encode (i : Instr) : decode (encode i) = .ok i := by cases i <;> rfl

/-- Without a turn chosen and with BUSY = 0, a CMD write of a command issues it. -/
theorem step_command {s : State} {i : Instr} {rest : List HostStmt} (hs : s.sched = []) (hb : s.regs.busy = false)
    (hp : s.program = wr 0x20 (encode i) :: rest) :
    step s = .next { s with regs := issue i s.regs, program := rest } := by
  obtain ⟨r, p, sc, rd, d⟩ := s
  simp only at hs hb hp
  subst hs hp
  simp only [step, nextTurn, turnOf, defaultTurn, hb, Bool.false_eq_true, if_false, takeTurn, wr, hostStep, busWrite,
    portOf_cmd, hostWritable, issueCommand, decode_encode]
  exact exec_of_idle hb

/-- Without a turn chosen and with BUSY = 1, the pending command completes. -/
theorem step_complete {s : State} {i : Instr} (hs : s.sched = []) (hb : s.regs.busy = true) (hp : s.regs.pend = some i) :
    step s = .next (s.setRegs (complete (perform i s.regs))) := by
  obtain ⟨r, p, sc, rd, d⟩ := s
  simp only at hs hb hp
  subst hs
  simp only [step, nextTurn, turnOf, defaultTurn, hb, if_true, takeTurn, coreStep, hp]
  exact exec_of_busy hb

/-- Without a turn chosen and with BUSY = 0, a POLL reads STATUS once and is done. -/
theorem step_poll {s : State} {rest : List HostStmt} (hs : s.sched = []) (hb : s.regs.busy = false) (hp : s.program = .poll :: rest) :
    step s = .next { s with program := rest, reads := s.reads ++ [statusByte s.regs] } := by
  obtain ⟨r, p, sc, rd, d⟩ := s
  simp only at hs hb hp
  subst hs hp
  simp only [step, nextTurn, turnOf, defaultTurn, hb, Bool.false_eq_true, if_false, takeTurn, hostStep, hostRead,
    busRead_status, statusByte_busy]
  rfl

end Sys2Proof.Machine
end

