-- ==== Sys2Proof/Laws/Transforms.lean ====
section
/-! SUPPORT. Reading one byte of what a block function gives. -/

namespace Sys2Proof.Machine

theorem cell_blockOf (f : Fin 4 → Fin 4 → Byte) (r c : Fin 4) : cell (blockOf f) r c = f r c := by
  have hr : (r.val + 4 * c.val) % 4 = r.val := by omega
  have hc : (r.val + 4 * c.val) / 4 = c.val := by omega
  simp [cell, blockOf, rowOf, colOf, hr, hc]

theorem blockOf_getElem (f : Fin 4 → Fin 4 → Byte) (k : Nat) (h : k < 16) :
    (blockOf f)[k] = f (rowOf ⟨k, h⟩) (colOf ⟨k, h⟩) := by
  simp [blockOf]

/-- A block is its sixteen cells. -/
theorem block_ext_cell {s t : Block} (h : ∀ r c, cell s r c = cell t r c) : s = t := by
  apply Vector.ext
  intro k hk
  have := h (rowOf ⟨k, hk⟩) (colOf ⟨k, hk⟩)
  have e : k % 4 + 4 * (k / 4) = k := by omega
  simpa [cell, rowOf, colOf, e] using this

@[simp] theorem column_getElem (s : Block) (c : Fin 4) (r : Nat) (h : r < 4) : (column s c)[r] = cell s ⟨r, h⟩ c := by
  simp [column]

@[simp] theorem cell_subBytes (s : Block) (r c : Fin 4) : cell (subBytes s) r c = subByte (cell s r c) := by
  simp [cell, subBytes]

@[simp] theorem cell_invSubBytes (s : Block) (r c : Fin 4) : cell (invSubBytes s) r c = invSubByte (cell s r c) := by
  simp [cell, invSubBytes]

@[simp] theorem cell_shiftRows (s : Block) (r c : Fin 4) : cell (shiftRows s) r c = cell s r (c + r) :=
  cell_blockOf _ r c

@[simp] theorem cell_invShiftRows (s : Block) (r c : Fin 4) : cell (invShiftRows s) r c = cell s r (c - r) :=
  cell_blockOf _ r c

@[simp] theorem cell_mixColumns (s : Block) (r c : Fin 4) :
    cell (mixColumns s) r c = dot mixMatrix[r] (column s c) 4 :=
  cell_blockOf _ r c

@[simp] theorem cell_invMixColumns (s : Block) (r c : Fin 4) :
    cell (invMixColumns s) r c = dot invMixMatrix[r] (column s c) 4 :=
  cell_blockOf _ r c

@[simp] theorem cell_addRoundKey (s k : Block) (r c : Fin 4) :
    cell (addRoundKey s k) r c = cell s r c ^^^ cell k r c := by
  simp [cell, addRoundKey]

@[simp] theorem expand_getElem (key : Block) (j : Nat) (h : j < 11) : (expand key)[j] = roundKeyAt key j := by
  simp [expand]

theorem padBlock_getElem (s : Block) (len k : Nat) (h : k < 16) :
    (padBlock s len)[k] = if k < len then s[k] else BitVec.ofNat 8 (16 - len) := by
  simp [padBlock]

end Sys2Proof.Machine
end

