-- ==== Sys2Proof/Tests/Slice0.lean ====
section
/-! SUPPORT. Tests of one step each, with results from 95_test_vectors.md or the rule cited, and for every obligation with hypotheses a
state and operands that meet them. -/

namespace Sys2Proof.Tests

open Sys2Proof Sys2Proof.Machine

/-- The state I = 00 01 ... 0F of 95_test_vectors.md section 2.4. -/
def blockI : Block := hexBlock 0x000102030405060708090A0B0C0D0E0F

/-- The key K3 of 95_test_vectors.md section 2.3. -/
def keyK3 : Block := hexBlock 0x00112233445566778899AABBCCDDEEFF

/-- A run's state with these registers and nothing else. -/
def holding (r : Regs) : State := { State.reset with regs := r }

/-- A command accepted and not yet completed. -/
def pending (i : Instr) (r : Regs) : State := holding { r with busy := true, pend := some i }

/-- The registers in a session with this key. -/
def session (key : Block) : Regs := { Regs.reset with key := key, rk := expand key, keyv := true }

/-- One value of the registers after an outcome. -/
def seen {α : Type} (o : Host.Outcome State Fault Refusal) (f : Regs → α) : Option α :=
  match o with
  | .next t => some (f t.regs)
  | _ => none

/-- The completion of a command from these registers. -/
def completing {α : Type} (i : Instr) (r : Regs) (f : Regs → α) : Option α := seen (exec i (pending i r)) f

/-- A bus write to these registers. -/
def writing {α : Type} (a v : Byte) (r : Regs) (f : Regs → α) : Option α := seen (busWrite a v (holding r)) f

/-- STATUS and ERRCODE. -/
def flags (r : Regs) : Byte × Byte := (statusByte r, r.errcode)

/-! ## What is well formed -/

/-- 30_encoding.md R94: the ends of the illegal ranges are refused. -/
theorem test_illegal_bytes_refused :
    ∀ v ∈ ([0x09, 0x0F, 0x15, 0x1F, 0x24, 0x27, 0x2B, 0xFF] : List Byte),
      legalOpcode v = false ∧ decode v = .error .illegalCmd := by decide

/-- 30_encoding.md R98: an RD word with a data byte is no listing, and the decoder refuses it. -/
theorem test_listing_with_data_in_read_refused :
    listingWellFormed 0x02101 = false ∧ decodeListing 0x02101 = none := by decide

/-- 30_encoding.md R91: a word that is no byte is no command. -/
theorem test_long_word_refused : decodeTableWord 16 3 = none ∧ decodeTableWord 8 256 = none := by decide

/-! ## Decoding: every command's byte, bit by bit, from the opcode column of 30_encoding.md R92 -/

theorem test_decode_control_and_keys :
    decode 0b00000000 = .ok .nop ∧ decode 0b00000001 = .ok .keyexp ∧ decode 0b00000010 = .ok .keyclr := by decide

theorem test_decode_cipher_and_padding :
    decode 0b00000011 = .ok .enc ∧ decode 0b00000100 = .ok .dec ∧ decode 0b00000101 = .ok .encf ∧
      decode 0b00000110 = .ok .decf ∧ decode 0b00000111 = .ok .pad ∧ decode 0b00001000 = .ok .chkpad := by decide

theorem test_decode_field_and_lookup :
    decode 0b00010000 = .ok .gfmul ∧ decode 0b00010001 = .ok .xtime ∧ decode 0b00010010 = .ok .dot ∧
      decode 0b00010011 = .ok .sbox ∧ decode 0b00010100 = .ok .isbox := by decide

theorem test_decode_transforms :
    decode 0b00100000 = .ok .subbytes ∧ decode 0b00100001 = .ok .shiftrows ∧ decode 0b00100010 = .ok .mixcol ∧
      decode 0b00100011 = .ok .addrk ∧ decode 0b00101000 = .ok .invsubbytes ∧ decode 0b00101001 = .ok .invshiftrows ∧
      decode 0b00101010 = .ok .invmixcol := by decide

/-- 95_test_vectors.md section 3: `WR CMD, 0x03` is 0x12003, `RD STATUS` is 0x02100, `WR GF_A, 0x57` is 0x12857. -/
theorem test_listing_words :
    decodeListing 0x12003 = some (.wr 0x20 0x03) ∧ decodeListing 0x02100 = some (.rd 0x21) ∧
      decodeListing 0x12857 = some (.wr 0x28 0x57) := by decide

/-! ## One step of each command -/

/-- 40_command_lifecycle.md R119: a NOP after an error sets DONE and leaves ERR and ERRCODE. -/
theorem test_nop_keeps_error :
    completing .nop { Regs.reset with err := true, errcode := 0x02 } flags = some (0x06, 0x02) := by decide

/-- 95_test_vectors.md 2.3, K3, RK[10]. -/
theorem test_keyexp_last_round_key :
    completing .keyexp { Regs.reset with key := keyK3 } (fun r => (r.rk[10], r.keyv)) =
      some (hexBlock 0x36D024461D84B8375FC0F9C04CBAB6BB, true) := by decide +kernel

/-- 95_test_vectors.md 2.3, K2, RK[1]. -/
theorem test_keyexp_first_round_key :
    completing .keyexp { Regs.reset with key := hexBlock 0x2B7E151628AED2A6ABF7158809CF4F3C } (fun r => r.rk[1]) =
      some (hexBlock 0xA0FAFE1788542CB123A339392A6C7605) := by decide +kernel

/-- 43_key_schedule.md R178: KEY, RK and KEYV are cleared, STATE and PADV are not. -/
theorem test_keyclr :
    completing .keyclr { session keyK3 with state := blockI, padv := true }
      (fun r => (r.key, r.rk[0], r.keyv, r.state, r.padv)) =
      some (Vector.replicate 16 0, Vector.replicate 16 0, false, blockI, true) := by decide +kernel

/-- 95_test_vectors.md 2.6: the block "Hello, World!!!!" under K3. -/
theorem test_enc :
    completing .enc { session keyK3 with state := hexBlock 0x48656C6C6F2C20576F726C6421212121 } (fun r => r.state) =
      some (hexBlock 0x3B5930B515C0CBB316DA627B08B0B52A) := by decide +kernel

/-- 95_test_vectors.md section 1, S5. -/
theorem test_dec :
    completing .dec { session (Vector.replicate 16 0) with state := hexBlock 0x66E94BD4EF8A2C3B884CFA59CA342B2E }
      (fun r => r.state) = some (Vector.replicate 16 0) := by decide +kernel

/-- 95_test_vectors.md 2.6: the longest final chunk, LEN = 15. -/
theorem test_encf :
    completing .encf { session keyK3 with state := hexBlock 0x48656C6C6F2C20576F726C6421212121, len := 15 }
      (fun r => r.state) = some (hexBlock 0xE742AFB4CCB61A8534D1F78C44675621) := by decide +kernel

/-- 95_test_vectors.md 2.6: the short message under K3. -/
theorem test_decf :
    completing .decf { session keyK3 with state := hexBlock 0x9E2E902DDFD264E59397700E9316D13C }
      (fun r => (r.state, r.padn, r.outlen, r.padv)) =
      some (hexBlock 0x6162630D0D0D0D0D0D0D0D0D0D0D0D0D, 13, 3, true) := by decide +kernel

/-- 95_test_vectors.md 2.6: block 0 as the last one: no padding, no error. -/
theorem test_decf_without_padding :
    completing .decf { session keyK3 with state := hexBlock 0x3B5930B515C0CBB316DA627B08B0B52A }
      (fun r => (r.padn, r.outlen, flags r)) = some (0, 16, (0x0A, 0x00)) := by decide +kernel

/-- 95_test_vectors.md 2.6, PAD of I with LEN = 3. -/
theorem test_pad :
    completing .pad { Regs.reset with state := blockI, len := 3 } (fun r => r.state) =
      some (hexBlock 0x0001020D0D0D0D0D0D0D0D0D0D0D0D0D) := by decide +kernel

/-- 95_test_vectors.md 2.6, CHKPAD: twelve 0Ds are not thirteen. -/
theorem test_chkpad_one_byte_short :
    completing .chkpad { Regs.reset with state := hexBlock 0x000000000D0D0D0D0D0D0D0D0D0D0D0D }
      (fun r => (r.padn, r.outlen, r.padv)) = some (0, 16, false) := by decide +kernel

/-- 95_test_vectors.md 2.6, CHKPAD: the three bytes before thirteen 0Ds are not looked at. -/
theorem test_chkpad_more_bytes_match :
    completing .chkpad { Regs.reset with state := Vector.replicate 16 0x0D }
      (fun r => (r.padn, r.outlen, r.padv)) = some (13, 3, true) := by decide +kernel

/-- 95_test_vectors.md 2.1, GFMUL. -/
theorem test_gfmul :
    completing .gfmul { Regs.reset with gfA := 0x0E, gfB := 0x0B } (fun r => r.gfR) = some 0x62 := by decide

/-- 95_test_vectors.md 2.1, XTIME, with and without the reduction. -/
theorem test_xtime :
    completing .xtime { Regs.reset with gfA := 0xC0 } (fun r => r.gfR) = some 0x9B ∧
      completing .xtime { Regs.reset with gfA := 0x1B } (fun r => r.gfR) = some 0x36 := by decide

/-- 95_test_vectors.md 2.1, DOT with DOTLEN = 3. -/
theorem test_dot :
    completing .dot { Regs.reset with
      dota := #v[0x02, 0x03, 0x01, 0x01], dotb := #v[0xDB, 0x13, 0x53, 0x45], dotlen := 3 } (fun r => r.gfR) =
      some 0xCB := by decide +kernel

/-- 95_test_vectors.md 2.2, SBOX. -/
theorem test_sbox : completing .sbox { Regs.reset with gfA := 0xC9 } (fun r => r.gfR) = some 0xDD := by decide +kernel

/-- 95_test_vectors.md 2.2, ISBOX. -/
theorem test_isbox : completing .isbox { Regs.reset with gfA := 0x10 } (fun r => r.gfR) = some 0x7C := by decide +kernel

/-- 95_test_vectors.md 2.4, SUBBYTES of I. -/
theorem test_subbytes :
    completing .subbytes { Regs.reset with state := blockI } (fun r => r.state) =
      some (hexBlock 0x637C777BF26B6FC53001672BFED7AB76) := by decide +kernel

/-- 95_test_vectors.md 2.4, SHIFTROWS of I. -/
theorem test_shiftrows :
    completing .shiftrows { Regs.reset with state := blockI } (fun r => r.state) =
      some (hexBlock 0x00050A0F04090E03080D02070C01060B) := by decide +kernel

/-- 95_test_vectors.md 2.4, MIXCOL of I. -/
theorem test_mixcol :
    completing .mixcol { Regs.reset with state := blockI } (fun r => r.state) =
      some (hexBlock 0x02070005060304010A0F080D0E0B0C09) := by decide +kernel

/-- 95_test_vectors.md 2.4, ADDRK of I with K1 = I and RKSEL = 10. -/
theorem test_addrk :
    completing .addrk { session blockI with state := blockI, rksel := 10 } (fun r => r.state) =
      some (hexBlock 0x13101F7CE7914C10FB0EAD8041263ECA) := by decide +kernel

/-- 95_test_vectors.md 2.4, INVSUBBYTES of I. -/
theorem test_invsubbytes :
    completing .invsubbytes { Regs.reset with state := blockI } (fun r => r.state) =
      some (hexBlock 0x52096AD53036A538BF40A39E81F3D7FB) := by decide +kernel

/-- 95_test_vectors.md 2.4, INVSHIFTROWS of I. -/
theorem test_invshiftrows :
    completing .invshiftrows { Regs.reset with state := blockI } (fun r => r.state) =
      some (hexBlock 0x000D0A0704010E0B0805020F0C090603) := by decide +kernel

/-- 95_test_vectors.md 2.4, INVMIXCOL of I. -/
theorem test_invmixcol :
    completing .invmixcol { Regs.reset with state := blockI } (fun r => r.state) =
      some (hexBlock 0x0A0F080D0E0B0C090207000506030401) := by decide +kernel

/-! ## The lifecycle and the errors: rows of 95_test_vectors.md 2.7 -/

theorem test_keyexp_accepted :
    writing 0x20 0x01 Regs.reset (fun r => (flags r, r.pend)) = some ((0x01, 0x00), some .keyexp) := by decide

theorem test_enc_without_key_rejected :
    writing 0x20 0x03 Regs.reset (fun r => (flags r, r.pend)) = some ((0x04, 0x02), none) := by decide

theorem test_illegal_command_rejected : writing 0x20 0x09 Regs.reset flags = some (0x04, 0x01) := by decide

theorem test_pad_len_17_rejected : writing 0x20 0x07 { Regs.reset with len := 0x11 } flags = some (0x04, 0x03) := by decide

theorem test_encf_len_16_rejected :
    writing 0x20 0x05 { Regs.reset with len := 0x10, keyv := true } flags = some (0x0C, 0x03) := by decide

theorem test_encf_no_key_before_length :
    writing 0x20 0x05 { Regs.reset with len := 0x14 } flags = some (0x04, 0x02) := by decide

theorem test_dot_length_5_rejected : writing 0x20 0x12 { Regs.reset with dotlen := 5 } flags = some (0x04, 0x04) := by decide

theorem test_addrk_index_11_rejected :
    writing 0x20 0x23 { Regs.reset with rksel := 11, keyv := true } flags = some (0x0C, 0x05) := by decide

theorem test_addrk_no_key_before_index :
    writing 0x20 0x23 { Regs.reset with rksel := 11 } flags = some (0x04, 0x02) := by decide

theorem test_busy_state_write_dropped :
    writing 0x10 0xAA { Regs.reset with busy := true, pend := some .keyexp } (fun r => (flags r, r.state)) =
      some ((0x05, 0x06), Vector.replicate 16 0) := by decide

theorem test_busy_write_before_illegal_command :
    writing 0x20 0xFF { Regs.reset with busy := true, pend := some .keyexp } (fun r => (flags r, r.pend)) =
      some ((0x05, 0x06), some .keyexp) := by decide

theorem test_clrerr :
    writing 0x21 0x04 { Regs.reset with err := true, errcode := 0x06, done := true, keyv := true } flags =
      some (0x0A, 0x00) := by decide

theorem test_clrdone : writing 0x21 0x02 { Regs.reset with done := true, keyv := true } flags = some (0x08, 0x00) := by decide

theorem test_status_other_bits_ignored :
    writing 0x21 0x19 { Regs.reset with done := true, keyv := true } flags = some (0x0A, 0x00) := by decide

theorem test_key_write_of_same_value_ends_session :
    writing 0x05 0x00 { Regs.reset with done := true, keyv := true } flags = some (0x02, 0x00) := by decide

/-! ## Bus transactions: rows of 95_test_vectors.md 2.8 -/

theorem test_reserved_reads :
    ∀ a ∈ ([0x2B, 0x38, 0x50, 0xFF] : List Byte), busRead a State.reset = (0x00, State.reset) := by decide

theorem test_reserved_and_read_only_writes_ignored :
    writing 0xFF 0x12 Regs.reset id = some Regs.reset ∧ writing 0x2A 0x55 Regs.reset id = some Regs.reset := by decide

theorem test_window_at_10 :
    ((busRead 0x40 (holding { session keyK3 with rksel := 10 })).1,
      (busRead 0x4F (holding { session keyK3 with rksel := 10 })).1) = (0x36, 0xBB) := by decide +kernel

theorem test_window_at_11 : (busRead 0x4F (holding { session keyK3 with rksel := 11 })).1 = 0x00 := by decide +kernel

theorem test_len_stored_as_written : writing 0x23 0xC8 Regs.reset (fun r => r.len) = some 0xC8 := by decide

/-- 70_reset_and_hazards.md R312: an owned read takes a free value and counts it; which value, nothing says. -/
theorem test_owned_read_is_free :
    busRead 0x40 (pending .keyexp Regs.reset) =
      (Config.draw 0, { pending .keyexp Regs.reset with draws := 1 }) := rfl

/-! ## Steps -/

/-- A command laid by `withFetchWord` is written to CMD by the very next step: KEYEXP is accepted. -/
theorem test_first_command_after_reset :
    seen (step (State.reset.withFetchWord 8 0x01)) (fun r => (flags r, r.pend)) = some ((0x01, 0x00), some .keyexp) := by decide

/-- 30_encoding.md R97: POLL that reads BUSY = 1 stays; the value it read is recorded. -/
theorem test_poll_stays_while_busy :
    (match step { pending .nop Regs.reset with program := [.poll], sched := [.host] } with
      | .next t => some (t.program, t.reads)
      | _ => none) = some ([.poll], [0x01]) := by decide

/-- 70_reset_and_hazards.md R301: a reset abandons the pending command. -/
theorem test_reset_abandons :
    seen (step { pending .keyexp Regs.reset with sched := [.reset] }) (fun r => (flags r, r.pend)) =
      some ((0x00, 0x00), none) := by decide

/-! ## Witnesses: for each obligation with hypotheses, a state and operands that meet them, clause by clause -/

/-- The registers of a session with every operand at the last value its command takes. -/
def sessionAtBounds : Regs := { session (Vector.replicate 16 0) with len := 15, dotlen := 4, rksel := 10 }

/-- The host writes one byte at this step. -/
def hostWrites (a v : Byte) (r : Regs) : State := { holding r with program := [wr a v], sched := [.host] }

theorem test_witness_IllegalBytes : (holding Regs.reset).regs.busy = false ∧ decode 0x09 = .error .illegalCmd ∧
    decode 0xFF = .error .illegalCmd := by decide

theorem test_witness_ListingWords : decodeListing 0x12003 = some (.wr 0x20 0x03) := by decide

theorem test_witness_StepRuns_issue : let s := hostWrites 0x20 0x2A Regs.reset
    turnOf s = .host ∧ s.program = .bus (.wr 0x20 0x2A) :: [] ∧ s.regs.busy = false ∧ decode 0x2A = .ok .invmixcol := by
  decide

theorem test_witness_StepRuns_core : let s := pending .enc Regs.reset
    turnOf s = .core ∧ s.regs.busy = true ∧ s.regs.pend = some .enc := by decide

theorem test_witness_StepRuns_core_idle : let s := { State.reset with sched := [.core] }
    turnOf s = .core ∧ s.regs.busy = false := by decide

theorem test_witness_HostStatements_write : let s := hostWrites 0xFF 0x12 Regs.reset
    turnOf s = .host ∧ s.program = .bus (.wr 0xFF 0x12) :: [] := by decide

theorem test_witness_HostStatements_read : let s := { State.reset with program := [rd 0x21, .poll] }
    turnOf s = .host ∧ s.program = .bus (.rd 0x21) :: [.poll] := by decide

theorem test_witness_HostStatements_poll : let s := { pending .nop Regs.reset with program := [.poll], sched := [.host] }
    turnOf s = .host ∧ s.program = .poll :: [] ∧ s.regs.busy = true := by decide

theorem test_witness_EveryStepAnswers : let s := pending .keyexp Regs.reset
    ¬ (s.regs.busy = true ∧ ∃ i, s.regs.pend = some i ∧ readSet i (portOf 0x3F) = true) := by
  rintro s ⟨-, i, hi, hr⟩
  have hi : some Instr.keyexp = some i := hi
  cases hi
  exact absurd hr (by decide)

theorem test_witness_Reset : { State.reset with sched := [.reset, .core] }.sched = .reset :: .core :: [] := by decide

theorem test_witness_BusRead_owned : let s := pending .keyexp Regs.reset
    s.regs.busy = true ∧ (∃ i, s.regs.pend = some i ∧ readSet i (portOf 0x40) = true) ∧
      ∃ i, s.regs.pend = some i ∧ readSet i (portOf 0x4F) = true :=
  ⟨rfl, ⟨.keyexp, rfl, by decide⟩, .keyexp, rfl, by decide⟩

theorem test_witness_BusRead_exact : ∀ a ∈ ([0x00, 0x0F, 0x10, 0x1F, 0x20, 0x21, 0x22, 0x23, 0x24, 0x25, 0x26, 0x27, 0x28, 0x29,
    0x2A, 0x2B, 0x2F, 0x30, 0x33, 0x34, 0x37, 0x38, 0x3F, 0x40, 0x4F, 0x50, 0xFF] : List Byte),
    ¬ (State.reset.regs.busy = true ∧ ∃ i, State.reset.regs.pend = some i ∧ readSet i (portOf a) = true) := by
  rintro a - ⟨h, -⟩
  exact absurd h (by decide)

theorem test_witness_BusRead_addresses : (0x0F : Byte) = BitVec.ofNat 8 (15 : Fin 16).val ∧
    (0x1F : Byte) = BitVec.ofNat 8 (0x10 + (15 : Fin 16).val) ∧ (0x33 : Byte) = BitVec.ofNat 8 (0x30 + (3 : Fin 4).val) ∧
    (0x37 : Byte) = BitVec.ofNat 8 (0x34 + (3 : Fin 4).val) ∧ (0x4F : Byte) = BitVec.ofNat 8 (0x40 + (15 : Fin 16).val) ∧
    { Regs.reset with rksel := 10 }.rksel.toNat = (10 : Fin 11).val ∧ 10 < { Regs.reset with rksel := 11 }.rksel.toNat := by
  decide

theorem test_witness_ReservedAndReadOnly :
    (∀ a ∈ ([0x2B, 0x2F, 0x38, 0x3F, 0x50, 0xFF] : List Byte),
      (0x2B ≤ a.toNat ∧ a.toNat ≤ 0x2F) ∨ (0x38 ≤ a.toNat ∧ a.toNat ≤ 0x3F) ∨ 0x50 ≤ a.toNat) ∧
    (∀ a ∈ ([0x22, 0x24, 0x25, 0x2A, 0x40, 0x4F] : List Byte),
      a = 0x22 ∨ a = 0x24 ∨ a = 0x25 ∨ a = 0x2A ∨ (0x40 ≤ a.toNat ∧ a.toNat ≤ 0x4F)) := by decide

theorem test_witness_BusWrite_outside : ∀ a ∈ ([0x22, 0x24, 0x25, 0x2A, 0x2F, 0x38, 0x4F, 0xFF] : List Byte), a ≠ 0x21 ∧
    ¬ (a.toNat ≤ 0x20 ∨ a = 0x23 ∨ (0x26 ≤ a.toNat ∧ a.toNat ≤ 0x29) ∨ (0x30 ≤ a.toNat ∧ a.toNat ≤ 0x37)) := by decide

theorem test_witness_BusWrite_busy : (pending .dot Regs.reset).regs.busy = true ∧
    ∀ a ∈ ([0x00, 0x20, 0x23, 0x26, 0x29, 0x30, 0x37] : List Byte),
      a.toNat ≤ 0x20 ∨ a = 0x23 ∨ (0x26 ≤ a.toNat ∧ a.toNat ≤ 0x29) ∨ (0x30 ≤ a.toNat ∧ a.toNat ≤ 0x37) := by decide

theorem test_witness_BusWrite_idle : (holding Regs.reset).regs.busy = false := by decide

theorem test_witness_KeyWrite_idle : (holding (session keyK3)).regs.busy = false := rfl

theorem test_witness_KeyWrite_only_keyexp : ∃ t, step (pending .keyexp Regs.reset) = .next t ∧
    (pending .keyexp Regs.reset).regs.keyv = false ∧ t.regs.keyv = true := ⟨_, rfl, rfl, rfl⟩

theorem test_witness_KeyWrite_rejected : let s := holding { Regs.reset with key := keyK3 }
    s.regs.busy = false ∧ s.regs.keyv = false ∧ (0x23 : Byte) ∈ ([0x03, 0x04, 0x05, 0x06, 0x23] : List Byte) := by decide

theorem test_witness_StatusWrite : (0x19 : Byte).getLsbD 1 = false ∧ (0x19 : Byte).getLsbD 2 = false := by decide

theorem test_witness_ReadSet : Instr.invmixcol ∈ [Instr.enc, .dec, .encf, .pad, .subbytes, .shiftrows, .mixcol, .addrk, .invsubbytes,
    .invshiftrows, .invmixcol] ∧ Instr.isbox ∈ [Instr.gfmul, .xtime, .dot, .sbox, .isbox] := by decide

theorem test_witness_Issue : (pending .enc Regs.reset).regs.busy = true ∧ (holding Regs.reset).regs.busy = false ∧
    ∀ i : Instr, encode i ≠ 0x2B := ⟨rfl, rfl, fun i => by cases i <;> decide⟩

theorem test_witness_ErrorPriority_idle : (holding sessionAtBounds).regs.busy = false ∧ (holding sessionAtBounds).regs.keyv = true ∧
    (holding sessionAtBounds).regs.rksel.toNat ≤ 10 ∧ decode 0x1F = .error .illegalCmd := by decide +kernel

theorem test_witness_ErrorPriority_ranges : let r := { session keyK3 with len := 17, dotlen := 5, rksel := 11 }
    r.busy = false ∧ r.keyv = true ∧ 10 < r.rksel.toNat ∧ 16 < r.len.toNat ∧ 4 < r.dotlen.toNat ∧
      15 < { session keyK3 with len := 16 }.len.toNat := by decide +kernel

theorem test_witness_ErrorPriority_no_key : let r := { Regs.reset with rksel := 11, len := 20 }
    r.busy = false ∧ r.keyv = false ∧ r.rksel = 11 ∧ r.len = 20 ∧
      Instr.addrk ∈ [Instr.enc, .dec, .encf, .decf, .addrk] := by decide

theorem test_witness_ErrorPriority_busy : (pending .nop Regs.reset).regs.busy = true := rfl

theorem test_witness_ErrorsArePrecise_busy : ∃ t, busWrite 0x37 0xFF (pending .dot Regs.reset) = .next t ∧
    (pending .dot Regs.reset).regs.busy = true ∧ hostWritable (portOf 0x37) = true := ⟨_, rfl, rfl, rfl⟩

theorem test_witness_ErrorsArePrecise_command : ∃ t, busWrite 0x20 0x03 State.reset = .next t ∧
    State.reset.regs.busy = false ∧ t.regs.busy = false := ⟨_, rfl, rfl, rfl⟩

theorem test_witness_ErrIsSticky_cleared : let s := hostWrites 0x21 0x04 { Regs.reset with err := true, errcode := 0x06 }
    ∃ t, step s = .next t ∧ s.regs.err = true ∧ t.regs.err = false := ⟨_, rfl, rfl, rfl⟩

theorem test_witness_ErrIsSticky_completion : ∃ t, (pending .nop { Regs.reset with err := true, errcode := 0x02 }).regs.busy = true ∧
    exec .nop (pending .nop { Regs.reset with err := true, errcode := 0x02 }) = .next t := ⟨_, rfl, rfl⟩

/-- The hypotheses of every `CommandRule`, for the commands that need a key, a length, an index: a pending command whose checks pass at
their last value, an idle core, a busy core. -/
theorem test_witness_CommandRule : let s := pending .encf sessionAtBounds
    s.regs.busy = true ∧ (if s.regs.keyv then none else some (0x02 : Byte)) = none ∧
      (if s.regs.keyv = false then some (0x02 : Byte) else if 15 < s.regs.len.toNat then some 0x03 else none) = none ∧
      (if s.regs.keyv = false then some (0x02 : Byte) else if 10 < s.regs.rksel.toNat then some 0x05 else none) = none ∧
      (if 4 < s.regs.dotlen.toNat then some (0x04 : Byte) else none) = none ∧
      (if 16 < { Regs.reset with len := 16 }.len.toNat then some (0x03 : Byte) else none) = none ∧
      (holding Regs.reset).regs.busy = false := by decide +kernel

theorem test_witness_FieldCommandRules : let a : Quad := #v[0x02, 0x03, 0x01, 0x01]
    let b : Quad := #v[0x02, 0x03, 0x01, 0xFF]
    ∀ i : Fin 4, i.val < 3 → a[i] = b[i] ∧ b[i] = a[i] := by decide

theorem test_witness_PadCommandRules : let b02 := hexBlock 0x00000000000000000000000000000202
    let b03 := hexBlock 0x00000000000000000000000000000302
    let b10 := hexBlock 0x00101010101010101010101010101010
    (Vector.replicate 16 0x00 : Block)[15] = 0x00 ∧ 0x11 ≤ (hexBlock 0x11)[15].toNat ∧ (hexBlock 0x01)[15] = 0x01 ∧
      ((∀ k : Fin 16, 1 ≤ k.val → b10[k] = 0x10) ∧ b10[0] ≠ 0x10) ∧ (b02[15] = 0x02 ∧ b02[14] = 0x02) ∧
      (b03[15] = 0x02 ∧ b03[14] = 0x03) ∧ (14 : Fin 16).val < 15 := by decide +kernel

theorem test_witness_TransformCommandRules : let s := hexBlock 0x00010203000102030001020300010203
    (∀ r c : Fin 4, cell s r c = cell s r 0) ∧ ∀ r : Fin 4, cell (hexBlock 0xC6C6C6C6) r 3 = cell (hexBlock 0xC6C6C6C6) 0 3 := by
  decide +kernel

theorem test_witness_TransformCommandRules_columns : let s := hexBlock 0xDB135345
    let t := hexBlock 0xDB135346
    (∀ r : Fin 4, cell s r 0 = 0x00) ∧ (column s 0 = column t 0 ∧ s ≠ t) ∧
      (∀ r : Fin 4, r ≠ 3 → cell s r 3 = cell t r 3) ∧ cell s 3 3 ≠ cell t 3 3 := by
  decide +kernel

theorem test_witness_CompletionWrites : (pending .enc sessionAtBounds).regs.busy = true ∧ (0x0F : Byte) ≠ 0x21 ∧
    readSet .enc (portOf 0x0F) = false ∧ readSet .enc (portOf 0x20) = false ∧ Instr.enc ≠ .keyexp ∧ Instr.enc ≠ .keyclr ∧
    Instr.enc ≠ .chkpad ∧ Instr.enc ≠ .decf := by decide +kernel

theorem test_witness_KeyMaterial_rk : let s := pending .keyclr { Regs.reset with rk := Vector.replicate 11 (Vector.replicate 16 1) }
    ∃ t, step s = .next t ∧ t.regs.rk ≠ s.regs.rk := ⟨_, rfl, by decide⟩

theorem test_witness_KeyMaterial_key : ∃ t, step (hostWrites 0x0F 0x01 Regs.reset) = .next t ∧
    t.regs.key ≠ (hostWrites 0x0F 0x01 Regs.reset).regs.key := ⟨_, rfl, by decide⟩

theorem test_witness_HostCannotDisturb : let s := hostWrites 0x20 0xFF { Regs.reset with busy := true, pend := some .enc }
    ∃ t, step s = .next t ∧ turnOf s = .host ∧ s.regs.busy = true := ⟨_, rfl, rfl, rfl⟩

theorem test_witness_Invariants : let s := hostWrites 0x20 0x01 Regs.reset
    ∃ t, step s = .next t ∧ BusyIffPending s.regs ∧ RoundKeysFresh s.regs ∧ PadFlagAgrees s.regs ∧ PadnBounded s.regs ∧
      OutlenAgreesOrReset s.regs ∧ ErrorRecorded s.regs ∧ ReservedBitsZero s.regs :=
  ⟨_, rfl, by decide, by decide +kernel, by decide, by decide, by decide, by decide, by decide⟩

theorem test_witness_PendingChecked : let s := { pending .encf sessionAtBounds with program := [wr 0x23 0x10], sched := [.host] }
    ∃ t, step s = .next t ∧ BusyIffPending s.regs ∧ PendingChecked s.regs ∧ s.regs.pend = some .encf :=
  ⟨_, rfl, rfl, rfl, rfl⟩

theorem test_witness_PendingChecked_ranges :
    PendingChecked (pending .pad { Regs.reset with len := 16 }).regs ∧
      PendingChecked (pending .dot { Regs.reset with dotlen := 4 }).regs ∧
      PendingChecked (pending .addrk sessionAtBounds).regs := ⟨by decide, by decide, rfl⟩

theorem test_witness_DoneStaysClear : ∃ t, step (pending .nop Regs.reset) = .next t ∧
    DoneClearWhileBusy (pending .nop Regs.reset).regs ∧ (pending .nop Regs.reset).regs.busy = true :=
  ⟨_, rfl, fun _ => rfl, rfl⟩

theorem test_witness_OutlenAgrees : let s := hostWrites 0x20 0x07 { Regs.reset with padn := 1, padv := true, outlen := 15 }
    ∃ t, step s = .next t ∧ OutlenAgrees s.regs ∧ turnOf s ≠ .reset := ⟨_, rfl, by decide, by decide⟩

theorem test_witness_OutlenAgrees_checked : (pending .chkpad Regs.reset).regs.busy = true := rfl

theorem test_witness_EveryRunEnds : RunEnded State.reset := ⟨rfl, rfl, rfl⟩

theorem test_witness_RunStatement_performed : let s := { holding sessionAtBounds with program := runStmt .addrk }
    s.sched = [] ∧ s.regs.busy = false ∧ s.program = runStmt .addrk ++ [] ∧ checkPreconditions .addrk s.regs = none :=
  ⟨rfl, rfl, rfl, rfl⟩

theorem test_witness_RunStatement_rejected : let s := { State.reset with program := runStmt .addrk }
    s.sched = [] ∧ s.regs.busy = false ∧ s.program = runStmt .addrk ++ [] ∧ checkPreconditions .addrk s.regs = some .noKey :=
  ⟨rfl, rfl, rfl, rfl⟩

theorem test_witness_EncThenDec : let s := { holding (session keyK3) with program := runStmt .enc ++ runStmt .dec }
    s.sched = [] ∧ s.regs.busy = false ∧ s.regs.keyv = true ∧ s.program = runStmt .enc ++ runStmt .dec ++ [] :=
  ⟨rfl, rfl, rfl, rfl⟩

theorem test_witness_FieldLaws : (0x57 : Byte) ≠ 0x00 ∧ 0 < 50 ∧ 50 < 51 ∧ 0 < 254 ∧ 254 < 255 := by decide

theorem test_witness_Inverse : (0x53 : Byte) ≠ 0x00 ∧ multiply 0x53 0xCA = 0x01 := by decide +kernel

theorem test_witness_Roms : 1 ≤ 9 ∧ 9 ≤ 9 := by decide

theorem test_witness_Expand : 4 ≤ 4 ∧ 4 % 4 = 0 ∧ 4 ≤ 43 ∧ 43 < 44 ∧ 43 % 4 ≠ 0 := by decide

theorem test_witness_ExpandDeterminesTheKey : expand keyK3 = expand (hexBlock 0x00112233445566778899AABBCCDDEEFF) := rfl

theorem test_witness_LaneStructure : let s := Vector.replicate 16 (0x00 : Byte)
    let t := s.set 15 0x01
    s[(0 : Fin 16)] = t[(0 : Fin 16)] ∧ column s 0 = column t 0 ∧ s ≠ t := by decide +kernel

theorem test_witness_DecryptStages : 1 ≤ 1 ∧ 1 ≤ 10 ∧ 10 ≤ 10 := by decide

theorem test_witness_PadAndCheckPad : 16 ≤ 16 ∧ (15 : Fin 16).val < 16 ∧ 15 ≤ (15 : Fin 16).val ∧ 1 ≤ 1 ∧ 1 ≤ 16 := by decide

theorem test_witness_PadThenCheckPad : 15 ≤ 15 := by decide

theorem test_witness_CipherCommandRules :
    encrypt (Vector.replicate 16 0) (expand (Vector.replicate 16 0)) = hexBlock 0x66E94BD4EF8A2C3B884CFA59CA342B2E := by
  decide +kernel

end Sys2Proof.Tests
end

section
/-! Proofs for the scope statement (00_scope.md R14): which addresses a pending command owns, and what a read of any other address
gives. -/

namespace Sys2Proof.Machine

/-- An address is owned exactly while BUSY = 1 and it lies in ReadSet(PEND) (20_memory.md R65, 40_command_lifecycle.md R117). -/
theorem pendingOwns_iff (r : Regs) (p : Port) :
    pendingOwns r p = true ↔ r.busy = true ∧ ∃ i, r.pend = some i ∧ readSet i p = true := by
  unfold pendingOwns
  cases r.pend with
  | none => simp
  | some i => simp

/-- A read of an address no pending command owns is exact and draws nothing. -/
theorem busRead_of_not_owned {a : Byte} {s : State} (h : pendingOwns s.regs (portOf a) ≠ true) :
    busRead a s = (peek s.regs (portOf a), s) :=
  if_neg h

/-- Settles O7: by `step_cases` and `busWrite_cases` steps and bus writes answer in every case, and a read is free only where the
pending command owns its address. -/
theorem everyStepAnswers : Obligations.EveryStepAnswers := by
  refine ⟨fun s => ?_, fun s a v => ?_, fun s a hfree => ?_⟩
  · obtain ⟨t, hstep, -⟩ := step_cases s
    exact ⟨t, hstep⟩
  · obtain ⟨r, hwrite, -⟩ := busWrite_cases a v s
    exact ⟨s.setRegs r, hwrite⟩
  · exact busRead_of_not_owned (mt (pendingOwns_iff s.regs (portOf a)).1 hfree)

end Sys2Proof.Machine
end

section
/-! Proofs for 10_state.md: the bits of STATUS (R33, R39), which step writes which register (R22, R24, R36, R45), and the state
invariants (R47). -/

namespace Sys2Proof.Machine

/-! ### The STATUS byte -/

/-- STATUS bit by bit, bit 0 first (10_state.md R33): past PADV every bit is 0 (R39). -/
theorem statusByte_getLsbD (r : Regs) (k : Nat) :
    (statusByte r).getLsbD k = [r.busy, r.done, r.err, r.keyv, r.padv].getD k false := by
  simp only [statusByte, BitVec.getLsbD_append]
  match k with
  | 0 | 1 | 2 | 3 | 4 => simp
  | k + 5 => simp

theorem reservedBitsZero (r : Regs) : ReservedBitsZero r := by
  apply BitVec.eq_of_getLsbD_eq
  intro k hk
  simp [statusByte_getLsbD]

theorem busWrite_status (v : Byte) (s : State) : busWrite 0x21 v s = .next (s.setRegs (statusWrite v s.regs)) := rfl

/-- A STATUS write looks at bits 1 and 2 of the byte only (20_memory.md R68). -/
theorem statusWrite_congr {v w : Byte} (r : Regs) (hdone : v.getLsbD 1 = w.getLsbD 1) (herr : v.getLsbD 2 = w.getLsbD 2) :
    statusWrite v r = statusWrite w r := by
  simp only [statusWrite, hdone, herr]

/-- Settles O15: the first five bits of `statusByte_getLsbD`. -/
theorem statusBitPositions : Obligations.StatusBitPositions := fun r =>
  ⟨statusByte_getLsbD r 0, statusByte_getLsbD r 1, statusByte_getLsbD r 2, statusByte_getLsbD r 3, statusByte_getLsbD r 4⟩

/-- Settles O14: the reserved bits read 0, and masking them off keeps the two bits a STATUS write looks at. -/
theorem reservedStatusBits : Obligations.ReservedStatusBits := by
  refine ⟨fun r => ?_, fun s v => ?_⟩
  · exact ⟨statusByte_getLsbD r 5, statusByte_getLsbD r 6, statusByte_getLsbD r 7⟩
  · have hbits : statusWrite v s.regs = statusWrite (v &&& 0x1F) s.regs := statusWrite_congr s.regs (by simp) (by simp)
    rw [busWrite_status, busWrite_status, hbits]

/-! ### What a stored byte leaves alone (20_memory.md R66, R67) -/

/-- A stored byte changes no register but KEY, STATE, LEN, RKSEL, DOTLEN, GF_A, GF_B, DOTA, DOTB and KEYV. -/
theorem poke_frame (r : Regs) (v : Byte) (p : Port) : poke r v p = { r with
    key := (poke r v p).key
    state := (poke r v p).state
    len := (poke r v p).len
    rksel := (poke r v p).rksel
    dotlen := (poke r v p).dotlen
    gfA := (poke r v p).gfA
    gfB := (poke r v p).gfB
    dota := (poke r v p).dota
    dotb := (poke r v p).dotb
    keyv := (poke r v p).keyv } := by
  obtain ⟨⟩ := r
  cases p <;> rfl

@[simp] theorem poke_rk (r : Regs) (v : Byte) (p : Port) : (poke r v p).rk = r.rk := by rw [poke_frame]

@[simp] theorem poke_padn (r : Regs) (v : Byte) (p : Port) : (poke r v p).padn = r.padn := by rw [poke_frame]

@[simp] theorem poke_outlen (r : Regs) (v : Byte) (p : Port) : (poke r v p).outlen = r.outlen := by rw [poke_frame]

@[simp] theorem poke_padv (r : Regs) (v : Byte) (p : Port) : (poke r v p).padv = r.padv := by rw [poke_frame]

@[simp] theorem poke_busy (r : Regs) (v : Byte) (p : Port) : (poke r v p).busy = r.busy := by rw [poke_frame]

@[simp] theorem poke_done (r : Regs) (v : Byte) (p : Port) : (poke r v p).done = r.done := by rw [poke_frame]

@[simp] theorem poke_err (r : Regs) (v : Byte) (p : Port) : (poke r v p).err = r.err := by rw [poke_frame]

@[simp] theorem poke_errcode (r : Regs) (v : Byte) (p : Port) : (poke r v p).errcode = r.errcode := by rw [poke_frame]

@[simp] theorem poke_pend (r : Regs) (v : Byte) (p : Port) : (poke r v p).pend = r.pend := by rw [poke_frame]

/-- A byte stored at a KEY address ends the session (20_memory.md R67). -/
theorem poke_keyv_of_isKey (r : Regs) (v : Byte) {p : Port} (h : isKey p = true) : (poke r v p).keyv = false := by
  cases p with
  | key k => rfl
  | _ => simp [isKey] at h

/-- A byte stored elsewhere leaves KEY and KEYV. -/
theorem poke_of_not_isKey (r : Regs) (v : Byte) {p : Port} (h : isKey p = false) :
    (poke r v p).key = r.key ∧ (poke r v p).keyv = r.keyv := by
  cases p with
  | key k => simp [isKey] at h
  | _ => exact ⟨rfl, rfl⟩

/-! ### What a bus write leaves alone -/

theorem WriteEffect.rk_eq {r r' : Regs} {a v : Byte} (h : WriteEffect r a v r') : r'.rk = r.rk := by
  cases h <;> simp

theorem WriteEffect.padResult_eq {r r' : Regs} {a v : Byte} (h : WriteEffect r a v r') :
    r'.padn = r.padn ∧ r'.padv = r.padv ∧ r'.outlen = r.outlen := by
  cases h <;> simp

/-- A bus write changes KEY only by storing a byte at a KEY address while BUSY = 0 (10_state.md R22). -/
theorem WriteEffect.key_eq_or {r r' : Regs} {a v : Byte} (h : WriteEffect r a v r') :
    r'.key = r.key ∨ (r.busy = false ∧ a.toNat ≤ 0x0F) := by
  cases h with
  | stored idle _ _ =>
    cases hk : isKey (portOf a) with
    | true => exact .inr ⟨idle, (portOf_isKey a).1 hk⟩
    | false => exact .inl (poke_of_not_isKey r v hk).1
  | _ => exact .inl rfl

/-- A bus write clears ERR only as a STATUS write with bit 2 set (10_state.md R36). -/
theorem WriteEffect.err_eq_or {r r' : Regs} {a v : Byte} (h : WriteEffect r a v r') (herr : r.err = true) :
    r'.err = true ∨ (a = 0x21 ∧ v.getLsbD 2 = true) := by
  cases h with
  | statusWritten addr =>
    cases hv : v.getLsbD 2 with
    | true => exact .inr ⟨addr, rfl⟩
    | false => exact .inl (by rw [statusWrite_err, herr, hv]; rfl)
  | _ => exact .inl (by simp [herr])

/-! ### Who may change what -/

/-- Settles O20: of the ways a step changes the registers, reset and a STATUS write with bit 2 set alone lower ERR. -/
theorem errIsSticky : Obligations.ErrIsSticky := by
  refine ⟨fun c r => raiseError_err c r, fun s t hstep hset hclear => ?_, fun s t i hbusy hexec => ?_⟩
  · obtain ⟨r, hr, he⟩ := step_regs hstep
    rw [he] at hclear
    cases hr with
    | same => simp [hset] at hclear
    | reset turn => exact .inl turn
    | completed => simp [hset] at hclear
    | completedNothing => simp [hset] at hclear
    | written turn a v rest next _ effect =>
      rcases effect.err_eq_or hset with herr | ⟨rfl, hv⟩
      · simp [herr] at hclear
      · exact .inr ⟨turn, v, rest, next, hv⟩
  · rw [exec_of_busy hbusy] at hexec
    cases hexec
    simp

/-- Settles O31: a bus write never changes RK and changes KEY only at a KEY address; a completion changes them only for the
commands of their rows. -/
theorem keyMaterialWriters : Obligations.KeyMaterialWriters := by
  refine ⟨fun s t hstep hne => ?_, fun s t hstep hne => ?_⟩
  all_goals obtain ⟨r, hr, he⟩ := step_regs hstep; rw [he] at hne
  · cases hr with
    | same => exact absurd rfl hne
    | reset turn => exact .inl turn
    | completed turn i busy pend =>
      refine .inr ⟨turn, busy, ?_⟩
      by_contra hother
      obtain ⟨hexp, hclr⟩ := not_or.1 hother
      exact hne (perform_rk s.regs (by rintro rfl; exact hexp pend) (by rintro rfl; exact hclr pend))
    | completedNothing => exact absurd rfl hne
    | written _ _ _ _ _ _ effect => exact absurd effect.rk_eq hne
  · cases hr with
    | same => exact absurd rfl hne
    | reset turn => exact .inl turn
    | completed turn i busy pend =>
      by_cases hi : i = .keyclr
      · exact .inr (.inl ⟨turn, busy, hi ▸ pend⟩)
      · exact absurd (perform_key s.regs hi) hne
    | completedNothing => exact absurd rfl hne
    | written turn a v rest next _ effect =>
      rcases effect.key_eq_or with hkey | ⟨idle, haddr⟩
      · exact absurd hkey hne
      · exact .inr (.inr ⟨turn, idle, a, v, rest, next, haddr⟩)

/-- Completing changes what STATUS shows and nothing else. -/
theorem peek_complete (r : Regs) {p : Port} (h : p ≠ .status) : peek (complete r) p = peek r p := by
  cases p with
  | status => exact absurd rfl h
  | _ => rfl

/-- An effect changes what an address shows only in its command's ReadSet (10_state.md R45, 40_command_lifecycle.md R117). -/
theorem peek_perform (r : Regs) {i : Instr} {p : Port} (hst : p ≠ .status) (hp : readSet i p = false) :
    peek (perform i r) p = peek r p := by
  cases p with
  | status => exact absurd rfl hst
  | key k =>
    have hkey : (perform i r).key = r.key := perform_key r (by rintro rfl; cases hp)
    simp only [peek, hkey]
  | state k =>
    have hstate : (perform i r).state = r.state :=
      perform_state r (fun hi => by fin_cases hi <;> cases hp)
    simp only [peek, hstate]
  | padn => exact perform_padn r (by rintro rfl; cases hp) (by rintro rfl; cases hp)
  | outlen => exact perform_outlen r (by rintro rfl; cases hp) (by rintro rfl; cases hp)
  | gfR => exact perform_gfR r (fun hi => by fin_cases hi <;> cases hp)
  | rkwin k =>
    have hrk : (perform i r).rk = r.rk := perform_rk r (by rintro rfl; cases hp) (by rintro rfl; cases hp)
    simp only [peek, selectedRoundKey, hrk, perform_rksel]
  | _ => simp [peek]

/-- Settles O30: a completion is the command's effect and then `complete`, and each writes what its lemma says. -/
theorem completionWritesOnlyItsWriteSet : Obligations.CompletionWritesOnlyItsWriteSet := by
  intro s i hbusy
  refine ⟨_, exec_of_busy hbusy, fun a ha hown => ?_, fun hexp hclr => ⟨?_, ?_⟩, fun hclr => ?_, fun hchk hdecf => ?_, ?_⟩
  · have hst : portOf a ≠ .status := mt (portOf_eq_status a).1 ha
    calc peek (complete (perform i s.regs)) (portOf a)
      _ = peek (perform i s.regs) (portOf a) := peek_complete _ hst
      _ = peek s.regs (portOf a) := peek_perform _ hst hown
  · exact perform_rk s.regs hexp hclr
  · exact perform_keyv s.regs hexp hclr
  · exact perform_key s.regs hclr
  · exact perform_padv s.regs hchk hdecf
  · simp

/-! ### The result of a padding check (46_padding.md R244) -/

theorem checkPad_le (b : Block) : checkPad b ≤ 16 := by
  unfold checkPad
  dsimp only
  split
  · next h => obtain ⟨-, hle, -⟩ := h; exact hle
  · exact Nat.zero_le _

theorem setPadResult_padn_toNat (b : Block) (r : Regs) : (setPadResult b r).padn.toNat = checkPad b := by
  have := checkPad_le b
  simp
  omega

theorem setPadResult_padFlagAgrees (b : Block) (r : Regs) : PadFlagAgrees (setPadResult b r) := by
  have := checkPad_le b
  rw [PadFlagAgrees, setPadResult_padn_toNat, setPadResult_padv, bne_iff_ne]
  omega

theorem setPadResult_padnBounded (b : Block) (r : Regs) : PadnBounded (setPadResult b r) := by
  rw [PadnBounded, setPadResult_padn_toNat]
  exact checkPad_le b

theorem setPadResult_outlenAgrees (b : Block) (r : Regs) : OutlenAgrees (setPadResult b r) := by
  rw [OutlenAgrees, setPadResult_padn_toNat, setPadResult_padv, setPadResult_outlen]
  split
  · simp
    omega
  · rfl

/-- CHKPAD and DECF set PADN, PADV and OUTLEN as a padding check does, the other commands leave them. -/
theorem perform_padResult_cases (i : Instr) (r : Regs) :
    (∃ b r', perform i r = setPadResult b r') ∨
      ((perform i r).padn = r.padn ∧ (perform i r).padv = r.padv ∧ (perform i r).outlen = r.outlen) := by
  by_cases hchk : i = .chkpad
  · subst hchk; exact .inl ⟨_, _, rfl⟩
  by_cases hdecf : i = .decf
  · subst hdecf; exact .inl ⟨_, _, rfl⟩
  exact .inr ⟨perform_padn r hchk hdecf, perform_padv r hchk hdecf, perform_outlen r hchk hdecf⟩

theorem perform_outlenAgrees (i : Instr) {r : Regs} (h : OutlenAgrees r) : OutlenAgrees (perform i r) := by
  rcases perform_padResult_cases i r with ⟨b, r', he⟩ | ⟨hn, hv, ho⟩
  · exact he ▸ setPadResult_outlenAgrees b r'
  · rwa [OutlenAgrees, hn, hv, ho]

/-- Settles O37: the two checking commands establish it; a bus write leaves the three registers, and so do the completions of
the other commands. -/
theorem outlenAgreesOnceChecked : Obligations.OutlenAgreesOnceChecked := by
  refine ⟨fun s hbusy => ⟨⟨_, exec_of_busy hbusy, ?_⟩, _, exec_of_busy hbusy, ?_⟩, fun s t hs hstep hturn => ?_⟩
  · exact setPadResult_outlenAgrees s.regs.state s.regs
  · exact setPadResult_outlenAgrees (decrypt s.regs.state s.regs.rk) { s.regs with state := decrypt s.regs.state s.regs.rk }
  · obtain ⟨r, hr, he⟩ := step_regs hstep
    rw [he]
    cases hr with
    | same => exact hs
    | reset turn => exact absurd turn hturn
    | completed _ i => exact perform_outlenAgrees i hs
    | completedNothing => exact hs
    | written _ _ _ _ _ _ effect =>
      obtain ⟨hn, hv, ho⟩ := effect.padResult_eq
      rwa [OutlenAgrees, hn, hv, ho]

/-! ### The state invariants (10_state.md R47) -/

/-- The three invariants on PADN, PADV and OUTLEN speak of no other register. -/
theorem padInvariants_congr {r r' : Regs} (hpad : r'.padn = r.padn ∧ r'.padv = r.padv ∧ r'.outlen = r.outlen)
    (h : PadFlagAgrees r ∧ PadnBounded r ∧ OutlenAgreesOrReset r) :
    PadFlagAgrees r' ∧ PadnBounded r' ∧ OutlenAgreesOrReset r' := by
  obtain ⟨hn, hv, ho⟩ := hpad
  rwa [PadFlagAgrees, PadnBounded, OutlenAgreesOrReset, OutlenAgrees, hn, hv, ho]

theorem perform_padInvariants (i : Instr) {r : Regs} (h : PadFlagAgrees r ∧ PadnBounded r ∧ OutlenAgreesOrReset r) :
    PadFlagAgrees (perform i r) ∧ PadnBounded (perform i r) ∧ OutlenAgreesOrReset (perform i r) := by
  rcases perform_padResult_cases i r with ⟨b, r', he⟩ | hpad
  · rw [he]
    exact ⟨setPadResult_padFlagAgrees b r', setPadResult_padnBounded b r', .inl (setPadResult_outlenAgrees b r')⟩
  · exact padInvariants_congr hpad h

/-- KEYEXP makes the round keys fresh, KEYCLR ends the session, and no other command touches KEY, RK or KEYV. -/
theorem perform_roundKeysFresh (i : Instr) {r : Regs} (h : RoundKeysFresh r) : RoundKeysFresh (perform i r) := by
  by_cases hexp : i = .keyexp
  · subst hexp; exact fun _ => rfl
  by_cases hclr : i = .keyclr
  · subst hclr; exact fun hkeyv => absurd hkeyv Bool.false_ne_true
  rwa [RoundKeysFresh, perform_keyv r hexp hclr, perform_rk r hexp hclr, perform_key r hclr]

theorem poke_roundKeysFresh (v : Byte) (p : Port) {r : Regs} (h : RoundKeysFresh r) : RoundKeysFresh (poke r v p) := by
  cases hk : isKey p with
  | true => exact fun hkeyv => absurd hkeyv (by simp [poke_keyv_of_isKey r v hk])
  | false =>
    obtain ⟨hkey, hkeyv⟩ := poke_of_not_isKey r v hk
    rwa [RoundKeysFresh, hkey, hkeyv, poke_rk]

theorem WriteEffect.roundKeysFresh {r r' : Regs} {a v : Byte} (effect : WriteEffect r a v r') (h : RoundKeysFresh r) :
    RoundKeysFresh r' := by
  cases effect with
  | stored => exact poke_roundKeysFresh v (portOf a) h
  | _ => exact h

theorem errorCode_bounds (c : ErrCode) : 1 ≤ (errorCode c).toNat ∧ (errorCode c).toNat ≤ 6 := by
  cases c <;> decide

theorem raiseError_errorRecorded (c : ErrCode) (r : Regs) : ErrorRecorded (raiseError c r) :=
  ⟨fun herr => absurd herr (by simp), fun _ => errorCode_bounds c⟩

theorem statusWrite_errorRecorded (v : Byte) {r : Regs} (h : ErrorRecorded r) : ErrorRecorded (statusWrite v r) := by
  cases hv : v.getLsbD 2 with
  | true => simp only [ErrorRecorded, statusWrite_err, statusWrite_errcode, hv]; simp
  | false =>
    rw [ErrorRecorded, statusWrite_err, statusWrite_errcode, hv]
    simpa [ErrorRecorded] using h

theorem WriteEffect.errorRecorded {r r' : Regs} {a v : Byte} (effect : WriteEffect r a v r') (h : ErrorRecorded r) :
    ErrorRecorded r' := by
  cases effect with
  | ignored => exact h
  | statusWritten => exact statusWrite_errorRecorded v h
  | dropped => exact raiseError_errorRecorded _ r
  | stored => simpa [ErrorRecorded] using h
  | rejected c => exact raiseError_errorRecorded c (clearDone r)
  | accepted => exact h

theorem WriteEffect.busyIffPending {r r' : Regs} {a v : Byte} (effect : WriteEffect r a v r') (h : BusyIffPending r) :
    BusyIffPending r' := by
  cases effect with
  | stored => simpa [BusyIffPending] using h
  | accepted => rfl
  | _ => exact h

theorem WriteEffect.stateInvariants {r r' : Regs} {a v : Byte} (effect : WriteEffect r a v r') (h : StateInvariants r) :
    StateInvariants r' := by
  obtain ⟨hbusy, hfresh, hflag, hbound, hout, herr, -⟩ := h
  obtain ⟨hflag', hbound', hout'⟩ := padInvariants_congr effect.padResult_eq ⟨hflag, hbound, hout⟩
  exact ⟨effect.busyIffPending hbusy, effect.roundKeysFresh hfresh, hflag', hbound', hout', effect.errorRecorded herr,
    reservedBitsZero r'⟩

theorem perform_stateInvariants (i : Instr) {r : Regs} (h : StateInvariants r) : StateInvariants (perform i r) := by
  obtain ⟨hbusy, hfresh, hflag, hbound, hout, herr, -⟩ := h
  obtain ⟨hflag', hbound', hout'⟩ := perform_padInvariants i ⟨hflag, hbound, hout⟩
  refine ⟨?_, perform_roundKeysFresh i hfresh, hflag', hbound', hout', ?_, reservedBitsZero _⟩
  · simpa [BusyIffPending] using hbusy
  · simpa [ErrorRecorded] using herr

theorem complete_stateInvariants {r : Regs} (h : StateInvariants r) : StateInvariants (complete r) := by
  obtain ⟨-, hfresh, hflag, hbound, hout, herr, -⟩ := h
  exact ⟨rfl, hfresh, hflag, hbound, hout, herr, reservedBitsZero _⟩

theorem reset_stateInvariants : StateInvariants Regs.reset := by
  decide

/-- Settles O33: KEYV, BUSY and PADV are 0 and nothing is pending, so each invariant is read off the reset values. -/
theorem resetMeetsTheInvariants : Obligations.ResetMeetsTheInvariants :=
  ⟨reset_stateInvariants, rfl, fun _ => rfl⟩

/-- Settles O34: reset establishes the invariants, and effects, completions and bus writes keep them. -/
theorem everyStepKeepsTheInvariants : Obligations.EveryStepKeepsTheInvariants := by
  intro s t hs hstep
  obtain ⟨r, hr, he⟩ := step_regs hstep
  rw [he]
  cases hr with
  | same => exact hs
  | reset => exact reset_stateInvariants
  | completed _ i => exact complete_stateInvariants (perform_stateInvariants i hs)
  | completedNothing => exact complete_stateInvariants hs
  | written _ _ _ _ _ _ effect => exact effect.stateInvariants hs

end Sys2Proof.Machine
end

section
/-! Proofs for 20_memory.md: what each address names (R61 to R64), what a read of it returns (R65), what a write to it does (R66, R68),
and how a KEY write ends the session (R67). -/

namespace Sys2Proof.Machine

/-! ### The register map (20_memory.md R61 to R64) -/

theorem portOf_key (k : Fin 16) : portOf (BitVec.ofNat 8 k.val) = .key k := by
  revert k; decide

theorem portOf_state (k : Fin 16) : portOf (BitVec.ofNat 8 (0x10 + k.val)) = .state k := by
  revert k; decide

theorem portOf_dota (i : Fin 4) : portOf (BitVec.ofNat 8 (0x30 + i.val)) = .dota i := by
  revert i; decide

theorem portOf_dotb (i : Fin 4) : portOf (BitVec.ofNat 8 (0x34 + i.val)) = .dotb i := by
  revert i; decide

theorem portOf_rkwin (k : Fin 16) : portOf (BitVec.ofNat 8 (0x40 + k.val)) = .rkwin k := by
  revert k; decide

/-- The reserved addresses (20_memory.md R62). -/
theorem portOf_eq_reserved (a : Byte) : portOf a = .reserved ↔
    (0x2B ≤ a.toNat ∧ a.toNat ≤ 0x2F) ∨ (0x38 ≤ a.toNat ∧ a.toNat ≤ 0x3F) ∨ 0x50 ≤ a.toNat := by
  revert a; decide +kernel

/-- The host-writable set (20_memory.md R64). -/
theorem hostWritable_portOf (a : Byte) : hostWritable (portOf a) = true ↔
    a.toNat ≤ 0x20 ∨ a = 0x23 ∨ (0x26 ≤ a.toNat ∧ a.toNat ≤ 0x29) ∨ (0x30 ≤ a.toNat ∧ a.toNat ≤ 0x37) := by
  revert a; decide +kernel

/-! ### What a read returns (20_memory.md R65) -/

/-- A read of an address a pending command owns is the next free value and changes no register (70_reset_and_hazards.md R312). -/
theorem busRead_of_owned {a : Byte} {s : State} (h : pendingOwns s.regs (portOf a) = true) :
    busRead a s = (Config.draw s.draws, { s with draws := s.draws + 1 }) :=
  if_pos h

/-- No command's ReadSet holds a reserved address. -/
theorem pendingOwns_reserved (r : Regs) : pendingOwns r .reserved ≠ true := by
  rw [Ne, pendingOwns_iff]
  rintro ⟨-, i, -, hread⟩
  cases i <;> cases hread

theorem busRead_reserved {a : Byte} (h : portOf a = .reserved) (s : State) : busRead a s = (0x00, s) := by
  have hfree : pendingOwns s.regs (portOf a) ≠ true := h ▸ pendingOwns_reserved s.regs
  rw [busRead_of_not_owned hfree, h]
  rfl

/-- RKSEL in 0..10 puts the round key of that index in the window (10_state.md R42). -/
theorem selectedRoundKey_of_rksel {r : Regs} {j : Fin 11} (h : r.rksel.toNat = j.val) : selectedRoundKey r = r.rk[j] := by
  have hj : j.val ≤ 10 := by omega
  simp [selectedRoundKey, roundKey, Vector.getD, h, hj]

/-- RKSEL above 10 blanks the window (10_state.md R42). -/
theorem selectedRoundKey_of_gt {r : Regs} (h : 10 < r.rksel.toNat) : selectedRoundKey r = Vector.replicate 16 0x00 :=
  if_neg (Nat.not_le.2 h)

/-- Settles O9: an owned read draws, any other peeks at the port its address names. -/
theorem busReadReturnsTheAddressedValue : Obligations.BusReadReturnsTheAddressedValue := by
  refine fun s => ⟨fun a => busRead_regs a s, fun a howned => ?_, fun a hfree => ?_⟩
  · exact busRead_of_owned ((pendingOwns_iff _ _).2 howned)
  have hread : busRead a s = (peek s.regs (portOf a), s) :=
    busRead_of_not_owned (mt (pendingOwns_iff _ _).1 hfree)
  rw [hread]
  refine ⟨rfl, ?key, ?state, ?cmd, ?status, ?errcode, ?len, ?padn, ?outlen, ?rksel, ?dotlen, ?gfA, ?gfB, ?gfR, ?dota, ?dotb,
    ?window, ?blank, ?reserved⟩
  case key => rintro k rfl; simp only [portOf_key, peek]
  case state => rintro k rfl; simp only [portOf_state, peek]
  case dota => rintro i rfl; simp only [portOf_dota, peek]
  case dotb => rintro i rfl; simp only [portOf_dotb, peek]
  case window => rintro k j rfl hsel; simp only [portOf_rkwin, peek, selectedRoundKey_of_rksel hsel]
  case blank => rintro k rfl hsel; simp [portOf_rkwin, peek, selectedRoundKey_of_gt hsel]
  case reserved => intro ha; rw [(portOf_eq_reserved a).2 ha]; rfl
  all_goals
    rintro rfl
    rfl

/-! ### What a write does (20_memory.md R66, R68) -/

section
variable {a v : Byte} {s : State}

theorem busWrite_of_not_hostWritable (hst : a ≠ 0x21) (hw : hostWritable (portOf a) ≠ true) : busWrite a v s = .next s := by
  have hport : portOf a ≠ .status := mt (portOf_eq_status a).1 hst
  simp [busWrite, hport, hw]

theorem busWrite_of_busy (hbusy : s.regs.busy = true) (hw : hostWritable (portOf a) = true) :
    busWrite a v s = .next (s.setRegs (raiseError .busyWrite s.regs)) := by
  have hport : portOf a ≠ .status := by intro h; rw [h] at hw; cases hw
  simp [busWrite, hport, hw, hbusy]

theorem busWrite_of_idle {p : Port} (hidle : s.regs.busy = false) (hport : portOf a = p) (hw : hostWritable p = true)
    (hcmd : p ≠ .cmd) : busWrite a v s = .next (s.setRegs (poke s.regs v p)) := by
  have hst : p ≠ .status := by rintro rfl; cases hw
  simp [busWrite, hport, hst, hw, hidle, hcmd]

theorem busWrite_cmd_of_idle (hidle : s.regs.busy = false) : busWrite 0x20 v s = issueCommand v s := by
  simp only [busWrite, portOf_cmd, hostWritable, hidle, reduceCtorEq, Bool.not_true, Bool.false_eq_true, if_true, if_false]

/-- A KEY byte written while BUSY = 0 is stored and clears KEYV (20_memory.md R67). -/
theorem busWrite_key (k : Fin 16) (hidle : s.regs.busy = false) : busWrite (BitVec.ofNat 8 k.val) v s =
    .next { s with regs := { s.regs with key := s.regs.key.set k v, keyv := false } } :=
  busWrite_of_idle hidle (portOf_key k) rfl nofun

end

/-- Settles O10: a reserved port reads 0x00 and is owned by no command, and none of these ports is host-writable. -/
theorem reservedAndReadOnlyAddresses : Obligations.ReservedAndReadOnlyAddresses := by
  refine ⟨fun s a ha => ⟨busRead_reserved ((portOf_eq_reserved a).2 ha) s, fun v => ?_⟩, fun s a v ha => ?_⟩
  all_goals
    refine busWrite_of_not_hostWritable (by bv_omega) ?_
    rw [Ne, hostWritable_portOf]
    bv_omega

/-- Settles O11: one lemma for each branch of BusWrite, at the port each address names. -/
theorem busWriteStoresOrIsDropped : Obligations.BusWriteStoresOrIsDropped := by
  refine fun s v => ⟨busWrite_status v s, fun a hst hout => ?_, fun a hbusy hin => ?_, fun hidle => ?_⟩
  · exact busWrite_of_not_hostWritable hst (mt (hostWritable_portOf a).1 hout)
  · exact busWrite_of_busy hbusy ((hostWritable_portOf a).2 hin)
  · exact ⟨fun k => busWrite_key k hidle,
      fun k => busWrite_of_idle hidle (portOf_state k) rfl nofun,
      busWrite_cmd_of_idle hidle,
      busWrite_of_idle (p := .len) hidle rfl rfl nofun,
      busWrite_of_idle (p := .rksel) hidle rfl rfl nofun,
      busWrite_of_idle (p := .dotlen) hidle rfl rfl nofun,
      busWrite_of_idle (p := .gfA) hidle rfl rfl nofun,
      busWrite_of_idle (p := .gfB) hidle rfl rfl nofun,
      fun i => busWrite_of_idle hidle (portOf_dota i) rfl nofun,
      fun i => busWrite_of_idle hidle (portOf_dotb i) rfl nofun⟩

/-- A STATUS write as a choice per bit: bit 1 for DONE, bit 2 for ERR and ERRCODE (20_memory.md R68). -/
theorem statusWrite_eq_ite (v : Byte) (r : Regs) : statusWrite v r = { r with
    done := if v.getLsbD 1 then false else r.done
    err := if v.getLsbD 2 then false else r.err
    errcode := if v.getLsbD 2 then 0x00 else r.errcode } := by
  simp only [statusWrite]
  cases v.getLsbD 1 <;> cases v.getLsbD 2 <;> simp

/-- Settles O13: a STATUS write is performed in every state, and with both bits 0 each choice keeps the old value. -/
theorem statusWriteClearsDoneAndErr : Obligations.StatusWriteClearsDoneAndErr := by
  intro s v
  rw [busWrite_status, statusWrite_eq_ite]
  refine ⟨rfl, fun hdone herr => ?_⟩
  simp only [hdone, herr, Bool.false_eq_true, if_false]
  rfl

/-! ### The end of a session (20_memory.md R67, 10_state.md R37) -/

/-- No bus write raises KEYV. -/
theorem WriteEffect.keyv_of_keyv {r r' : Regs} {a v : Byte} (h : WriteEffect r a v r') (hkeyv : r'.keyv = true) :
    r.keyv = true := by
  cases h with
  | stored =>
    cases hk : isKey (portOf a) with
    | true => rw [poke_keyv_of_isKey r v hk] at hkeyv; cases hkeyv
    | false => rwa [(poke_of_not_isKey r v hk).2] at hkeyv
  | _ => exact hkeyv

/-- KEYEXP is the one command whose effect raises KEYV. -/
theorem eq_keyexp_of_perform_keyv {i : Instr} {r : Regs} (hold : r.keyv = false) (hnew : (perform i r).keyv = true) :
    i = .keyexp := by
  by_contra hexp
  have hclr : i ≠ .keyclr := by rintro rfl; cases hnew
  rw [perform_keyv r hexp hclr, hold] at hnew
  cases hnew

/-- Without a valid key schedule the first check of every keyed command fails (40_command_lifecycle.md R112). -/
theorem checkPreconditions_of_no_key {i : Instr} {r : Regs} (hi : i ∈ [Instr.enc, .dec, .encf, .decf, .addrk])
    (hkeyv : r.keyv = false) : checkPreconditions i r = some .noKey := by
  fin_cases hi <;> simp [hkeyv]

/-- The CMD write of a command whose checks fail while BUSY = 0 rejects it with the failing check's code
(40_command_lifecycle.md R110, R118). -/
theorem busWrite_cmd_rejected {op : Byte} {i : Instr} {s : State} {c : ErrCode} (hidle : s.regs.busy = false)
    (hop : decode op = .ok i) (hcheck : checkPreconditions i s.regs = some c) :
    busWrite 0x20 op s = .next (s.setRegs (reject c s.regs)) := by
  rw [busWrite_cmd_of_idle hidle]
  simp only [issueCommand, hop, exec_of_idle hidle, issue, hcheck]

/-- Settles O12: a KEY write clears KEYV; bus writes and the effects of the other commands never raise it; while it is 0 the
check for a key fails. -/
theorem keyWriteEndsTheSession : Obligations.KeyWriteEndsTheSession := by
  refine ⟨fun s k v hidle => ⟨_, busWrite_key k hidle, rfl, rfl, rfl⟩, fun s t hstep hold hnew => ?_,
    fun s op hidle hkeyv hop => ?_⟩
  · obtain ⟨r, hr, he⟩ := step_regs hstep
    rw [he] at hnew
    cases hr with
    | same => simp [hold] at hnew
    | reset => cases hnew
    | completed turn i busy pend => exact ⟨turn, busy, eq_keyexp_of_perform_keyv hold hnew ▸ pend⟩
    | completedNothing => simp [hold] at hnew
    | written _ _ _ _ _ _ effect => simp [effect.keyv_of_keyv hnew] at hold
  · have hkeyed : ∃ i ∈ [Instr.enc, .dec, .encf, .decf, .addrk], decode op = .ok i := by
      rcases hop with rfl | rfl | rfl | rfl | rfl <;> decide
    obtain ⟨i, hi, hdec⟩ := hkeyed
    exact busWrite_cmd_rejected hidle hdec (checkPreconditions_of_no_key hi hkeyv)

end Sys2Proof.Machine
end

section
/-! Proofs for 30_encoding.md: the opcode map and its illegal bytes (R90 to R94), what a host statement does in one step (R96, R97), the
17-bit listing words (R98), and RUN as a whole. -/

namespace Sys2Proof.Machine

/-! ### The opcode map (30_encoding.md R90 to R94) -/

/-- Every row of the opcode table holds its command's byte. -/
theorem encode_of_mem_opcodeTable : ∀ row ∈ opcodeTable, encode row.2 = row.1 := by decide

/-- A byte that decodes is the byte of what it decodes to: the lookup finds a row whose whole byte it is. -/
theorem encode_of_decode {v : Byte} {i : Instr} (h : decode v = .ok i) : encode i = v := by
  unfold decode at h
  split at h
  next row hfind =>
    cases h
    calc encode row.2 = row.1 := encode_of_mem_opcodeTable row (List.mem_of_find?_eq_some hfind)
      _ = v := by simpa using List.find?_some hfind
  next => cases h

/-- Settles O2: `encode_of_decode` one way, `decode_encode` the other. -/
theorem decodeInvertsEncode : Obligations.DecodeInvertsEncode :=
  fun _ i => ⟨encode_of_decode, fun h => h ▸ decode_encode i⟩

/-- Settles O1: each byte listed is the one `encode` gives the command beside it. -/
theorem opcodeBytesDecode : Obligations.OpcodeBytesDecode :=
  ⟨decode_encode .nop, decode_encode .keyexp, decode_encode .keyclr, decode_encode .enc, decode_encode .dec,
    decode_encode .encf, decode_encode .decf, decode_encode .pad, decode_encode .chkpad, decode_encode .gfmul,
    decode_encode .xtime, decode_encode .dot, decode_encode .sbox, decode_encode .isbox, decode_encode .subbytes,
    decode_encode .shiftrows, decode_encode .mixcol, decode_encode .addrk, decode_encode .invsubbytes,
    decode_encode .invshiftrows, decode_encode .invmixcol⟩

/-- The illegal bytes (30_encoding.md R94). -/
theorem decode_eq_illegalCmd (v : Byte) : decode v = .error .illegalCmd ↔
    (0x09 ≤ v.toNat ∧ v.toNat ≤ 0x0F) ∨ (0x15 ≤ v.toNat ∧ v.toNat ≤ 0x1F) ∨ (0x24 ≤ v.toNat ∧ v.toNat ≤ 0x27) ∨
      (0x2B ≤ v.toNat ∧ v.toNat ≤ 0xFF) := by
  revert v; decide +kernel

/-- The CMD write of an illegal byte while BUSY = 0 is turned away with the decoder's code (40_command_lifecycle.md R110, R118). -/
theorem busWrite_cmd_illegal {v : Byte} {c : ErrCode} {s : State} (hidle : s.regs.busy = false) (hv : decode v = .error c) :
    busWrite 0x20 v s = .next (s.setRegs (reject c s.regs)) := by
  rw [busWrite_cmd_of_idle hidle, issueCommand, hv]

/-- Settles O3: the ranges and their count by going through the 256 bytes, the CMD write by `busWrite_cmd_illegal`. -/
theorem illegalBytesRaiseIllegalCmd : Obligations.IllegalBytesRaiseIllegalCmd :=
  ⟨decode_eq_illegalCmd, by decide +kernel, fun _ _ hidle hv => busWrite_cmd_illegal hidle hv⟩

/-! ### The listing words (30_encoding.md R98) -/

section
variable (b : BitVec 1) (a d : Byte)

theorem listing_bit16 : (b ++ a ++ d).getLsbD 16 = b.getLsbD 0 := by
  simp only [BitVec.getLsbD_append]
  rfl

theorem listing_address : (b ++ a ++ d).extractLsb' 8 8 = a := by
  apply BitVec.eq_of_getLsbD_eq
  intro k hk
  simp only [BitVec.getLsbD_extractLsb', BitVec.getLsbD_append]
  simp [hk]

theorem listing_data : (b ++ a ++ d).extractLsb' 0 8 = d := by
  apply BitVec.eq_of_getLsbD_eq
  intro k hk
  simp only [BitVec.getLsbD_extractLsb', BitVec.getLsbD_append]
  simp [hk]

end

/-- A 17-bit word is its bit 16, its bits 15:8 and its bits 7:0, in that order. -/
theorem listing_split (w : BitVec 17) :
    BitVec.ofBool (w.getLsbD 16) ++ w.extractLsb' 8 8 ++ w.extractLsb' 0 8 = w := by
  apply BitVec.eq_of_getLsbD_eq
  intro k hk
  simp only [BitVec.getLsbD_append, BitVec.getLsbD_extractLsb', BitVec.getLsbD_ofBool]
  rcases Nat.lt_or_ge k 8 with h | h
  · simp [h]
  · rcases Nat.lt_or_ge k 16 with h' | h'
    · have hk' : k - 8 < 8 := by omega
      simp [show ¬ k < 8 by omega, hk', show 8 + (k - 8) = k by omega]
    · obtain rfl : k = 16 := by omega
      simp

theorem decodeListing_encodeListing (t : Transaction) : decodeListing (encodeListing t) = some t := by
  cases t with
  | wr a d => simp only [decodeListing, listingWellFormed, encodeListing, listing_bit16, listing_address, listing_data]; rfl
  | rd a => simp only [decodeListing, listingWellFormed, encodeListing, listing_bit16, listing_address, listing_data]; rfl

theorem encodeListing_of_decodeListing {w : BitVec 17} {t : Transaction} (h : decodeListing w = some t) :
    encodeListing t = w := by
  have hw := listing_split w
  unfold decodeListing listingWellFormed at h
  cases hbit : w.getLsbD 16 with
  | true =>
    rw [hbit] at h hw
    cases h
    exact hw
  | false =>
    rw [hbit] at h hw
    by_cases hd : w.extractLsb' 0 8 = 0
    · rw [hd] at h hw
      cases h
      exact hw
    · simp only [Bool.false_or, beq_iff_eq, if_neg hd] at h
      cases h

/-- Settles O4: both round trips, and the three fields of a concatenation of one, eight and eight bits. -/
theorem listingWordsRoundTrip : Obligations.ListingWordsRoundTrip :=
  ⟨decodeListing_encodeListing, fun _ _ => encodeListing_of_decodeListing,
    fun a d => ⟨listing_bit16 1#1 a d, listing_address 1#1 a d, listing_data 1#1 a d⟩,
    fun a => ⟨listing_bit16 0#1 a 0#8, listing_address 0#1 a 0#8, listing_data 0#1 a 0#8⟩, rfl, rfl⟩

/-! ### Host statements (30_encoding.md R96, R97) -/

/-- A turn of HOST performs the first statement of the program. -/
theorem step_host {s : State} {stmt : HostStmt} {rest : List HostStmt} (hturn : turnOf s = .host)
    (hprog : s.program = stmt :: rest) : step s = hostStep stmt rest { s with sched := s.sched.tail } := by
  simp only [step, nextTurn, hturn, takeTurn, hprog]

/-- A bus read does not look at the turns still to come, and keeps them. -/
theorem busRead_withSched (a : Byte) (s : State) (turns : List Turn) :
    busRead a { s with sched := turns } = ((busRead a s).1, { (busRead a s).2 with sched := turns }) := by
  simp only [busRead]
  split <;> rfl

/-- Settles O6: `step_host` for each statement; STATUS is never owned, so POLL reads it exactly, and its bit 0 is BUSY. -/
theorem hostStatementsStep : Obligations.HostStatementsStep := by
  refine ⟨fun s a d rest hturn hprog => ?write, fun s a rest hturn hprog => ?read, fun s rest hturn hprog => ?poll⟩
  case write => exact step_host hturn hprog
  case read =>
    rw [step_host hturn hprog]
    simp [hostStep, hostRead, busRead_withSched]
  case poll =>
    rw [step_host hturn hprog]
    simp only [hostStep, hostRead, busRead_status, statusByte_busy]
    cases s.regs.busy with
    | true => simp [← hprog]
    | false => rfl

/-! ### RUN (30_encoding.md R97, 70_reset_and_hazards.md R310) -/

section
variable {s : State} {i : Instr} {rest : List HostStmt}
variable (hsched : s.sched = []) (hidle : s.regs.busy = false) (hprog : s.program = runStmt i ++ rest)
include hsched hidle hprog

/-- RUN of a command whose checks pass: the CMD write, the CORE step, and the POLL that reads its STATUS. -/
theorem run_runStmt_accepted (hcheck : checkPreconditions i s.regs = none) :
    core.run 3 s = .next { s with
      regs := complete (perform i (accept i s.regs))
      program := rest
      reads := s.reads ++ [statusByte (complete (perform i (accept i s.regs)))] } := by
  have hissue : issue i s.regs = accept i s.regs := by simp only [issue, hcheck]
  have hwrite := step_command hsched hidle hprog
  rw [hissue] at hwrite
  calc core.run 3 s
    _ = core.run 2 { s with regs := accept i s.regs, program := .poll :: rest } := run_of_next hwrite
    _ = core.run 1 { s with regs := complete (perform i (accept i s.regs)), program := .poll :: rest } :=
        run_of_next (step_complete hsched rfl rfl)
    _ = _ := run_of_next (step_poll hsched rfl rfl)

/-- RUN of a command whose checks fail: the CMD write turns it away, and the POLL finds BUSY = 0 at once. -/
theorem run_runStmt_rejected {c : ErrCode} (hcheck : checkPreconditions i s.regs = some c) :
    core.run 2 s = .next { s with
      regs := reject c s.regs
      program := rest
      reads := s.reads ++ [statusByte (reject c s.regs)] } := by
  have hissue : issue i s.regs = reject c s.regs := by simp only [issue, hcheck]
  have hwrite := step_command hsched hidle hprog
  rw [hissue] at hwrite
  calc core.run 2 s
    _ = core.run 1 { s with regs := reject c s.regs, program := .poll :: rest } := run_of_next hwrite
    _ = _ := run_of_next (step_poll hsched hidle rfl)

end

/-- Settles O39: `run_runStmt_accepted` and `run_runStmt_rejected`, with the bits of the STATUS each leaves. -/
theorem runStatementCompletesTheCommand : Obligations.RunStatementCompletesTheCommand := by
  refine fun s i rest hsched hidle hprog => ⟨fun hcheck => ?accepted, fun c hcheck => ?rejected⟩
  case accepted =>
    exact ⟨_, exec_of_busy rfl, run_runStmt_accepted hsched hidle hprog hcheck, statusByte_getLsbD _ 0, statusByte_getLsbD _ 1⟩
  case rejected =>
    exact ⟨_, run_runStmt_rejected hsched hidle hprog hcheck, rfl, rfl, (statusByte_getLsbD _ 0).trans hidle,
      statusByte_getLsbD _ 1, statusByte_getLsbD _ 2⟩

end Sys2Proof.Machine
end

section
/-! Proofs for 40_command_lifecycle.md: the issue of a command and its checks (R110 to R113, R118), the CORE step (R114), what a pending
command keeps (R115, R116), the addresses it owns (R117), and NOP (R119). -/

namespace Sys2Proof.Machine

/-! ### What the checks look at (40_command_lifecycle.md R112) -/

/-- The checks look at KEYV, LEN, DOTLEN and RKSEL only. -/
theorem checkPreconditions_congr (i : Instr) {r r' : Regs} (hkeyv : r'.keyv = r.keyv) (hlen : r'.len = r.len)
    (hdotlen : r'.dotlen = r.dotlen) (hrksel : r'.rksel = r.rksel) : checkPreconditions i r' = checkPreconditions i r := by
  cases i <;> simp [hkeyv, hlen, hdotlen, hrksel]

/-- The code of the first check that fails, as one chain of conditions in the order of R112: NO_KEY comes first, and past it each
command has its own range check or none. -/
theorem checkPreconditions_map_errorCode (i : Instr) (r : Regs) : (checkPreconditions i r).map errorCode =
    if i ∈ [Instr.enc, .dec, .encf, .decf, .addrk] ∧ r.keyv = false then some 0x02
    else if i = .pad ∧ 16 < r.len.toNat then some 0x03
    else if i = .encf ∧ 15 < r.len.toNat then some 0x03
    else if i = .dot ∧ 4 < r.dotlen.toNat then some 0x04
    else if i = .addrk ∧ 10 < r.rksel.toNat then some 0x05
    else none := by
  by_cases hkey : i ∈ [Instr.enc, .dec, .encf, .decf, .addrk] ∧ r.keyv = false
  · obtain ⟨hi, hkeyv⟩ := hkey
    rw [checkPreconditions_of_no_key hi hkeyv, if_pos ⟨hi, hkeyv⟩]
    rfl
  · rw [if_neg hkey]
    cases i <;> simp_all [apply_ite (Option.map errorCode), errorCode]

/-! ### A pending command stays checked (40_command_lifecycle.md R115, R116) -/

theorem pendingChecked_congr {r r' : Regs} (h : PendingChecked r) (hpend : r'.pend = r.pend) (hkeyv : r'.keyv = r.keyv)
    (hlen : r'.len = r.len) (hdotlen : r'.dotlen = r.dotlen) (hrksel : r'.rksel = r.rksel) : PendingChecked r' := by
  simpa only [PendingChecked, hpend, checkPreconditions_congr _ hkeyv hlen hdotlen hrksel] using h

theorem pendingChecked_of_pend_none {r : Regs} (h : r.pend = none) : PendingChecked r := by
  rw [PendingChecked, h]
  rfl

theorem checkPreconditions_of_pendingChecked {r : Regs} {i : Instr} (h : PendingChecked r) (hpend : r.pend = some i) :
    checkPreconditions i r = none := by
  simpa [PendingChecked, hpend] using h

/-- A bus write stores an operand only while nothing is pending, and makes a command pending only once its checks pass. -/
theorem WriteEffect.pendingChecked {r r' : Regs} {a v : Byte} (effect : WriteEffect r a v r') (hbusy : BusyIffPending r)
    (h : PendingChecked r) : PendingChecked r' := by
  cases effect with
  | stored idle =>
    have hpend : r.pend = none := by simpa [BusyIffPending, idle] using hbusy
    exact pendingChecked_of_pend_none (by rw [poke_pend, hpend])
  | accepted i _ _ _ checked =>
    calc checkPreconditions i (accept i r)
      _ = checkPreconditions i r := checkPreconditions_congr i rfl rfl rfl rfl
      _ = none := checked
  | _ => exact pendingChecked_congr h rfl rfl rfl rfl rfl

/-- Settles O35: a completion and a reset leave nothing pending, and bus writes keep the pending command checked; a check that
passed is the bound it tests. -/
theorem pendingCommandStaysChecked : Obligations.PendingCommandStaysChecked := by
  refine ⟨fun s t hbusy hchecked hstep => ?step, fun r i hchecked hpend => ?ranges⟩
  case step =>
    obtain ⟨r, hr, he⟩ := step_regs hstep
    rw [he]
    cases hr with
    | same => exact ⟨hbusy, hchecked⟩
    | reset => exact ⟨rfl, rfl⟩
    | completed => exact ⟨rfl, rfl⟩
    | completedNothing => exact ⟨rfl, rfl⟩
    | written _ _ _ _ _ _ effect => exact ⟨effect.busyIffPending hbusy, effect.pendingChecked hbusy hchecked⟩
  case ranges =>
    have hpass := checkPreconditions_of_pendingChecked hchecked hpend
    have hkeyed : i ∈ [Instr.enc, .dec, .encf, .decf, .addrk] → r.keyv = true := by
      intro hi
      by_contra hkeyv
      simp [checkPreconditions_of_no_key hi (by simpa using hkeyv)] at hpass
    refine ⟨hkeyed, ?pad, ?encf, ?dot, ?addrk⟩
    case pad => rintro rfl; simpa using hpass
    case encf => rintro rfl; simpa [hkeyed (by decide)] using hpass
    case dot => rintro rfl; simpa using hpass
    case addrk => rintro rfl; simpa [hkeyed (by decide)] using hpass

/-! ### What HOST can change while BUSY = 1 (40_command_lifecycle.md R116, R117) -/

/-- A bus write while BUSY = 1 changes no register but DONE, ERR and ERRCODE. -/
theorem WriteEffect.eq_of_busy {r r' : Regs} {a v : Byte} (effect : WriteEffect r a v r') (hbusy : r.busy = true) :
    r' = { r with done := r'.done, err := r'.err, errcode := r'.errcode } := by
  cases effect with
  | ignored => rfl
  | statusWritten => rfl
  | dropped => rfl
  | stored idle => simp [hbusy] at idle
  | rejected _ _ idle => simp [hbusy] at idle
  | accepted _ _ idle => simp [hbusy] at idle

/-- Settles O32: a HOST step changes the registers by a bus write or not at all. -/
theorem hostCannotDisturbARunningCommand : Obligations.HostCannotDisturbARunningCommand := by
  intro s t hstep hturn hbusy
  obtain ⟨r, hr, he⟩ := step_regs hstep
  rw [he]
  cases hr with
  | same => rfl
  | reset turn => simp [hturn] at turn
  | completed turn => simp [hturn] at turn
  | completedNothing turn => simp [hturn] at turn
  | written _ _ _ _ _ _ effect => exact effect.eq_of_busy hbusy

/-- No bus write sets DONE, and the one that sets BUSY clears it. -/
theorem WriteEffect.doneClearWhileBusy {r r' : Regs} {a v : Byte} (effect : WriteEffect r a v r') (h : DoneClearWhileBusy r) :
    DoneClearWhileBusy r' := by
  cases effect with
  | ignored => exact h
  | statusWritten => exact fun hbusy => by rw [statusWrite_done, h hbusy, Bool.false_and]
  | dropped => exact h
  | stored => simpa [DoneClearWhileBusy] using h
  | rejected c => exact fun _ => reject_done c r
  | accepted i => exact fun _ => accept_done i r

/-- Settles O36: only a completion sets DONE, and it clears BUSY. -/
theorem doneStaysClearWhileBusy : Obligations.DoneStaysClearWhileBusy := by
  intro s t hs hstep
  obtain ⟨r, hr, he⟩ := step_regs hstep
  rw [he]
  cases hr with
  | same => exact hs
  | reset => exact fun _ => rfl
  | completed => exact nofun
  | completedNothing => exact nofun
  | written _ _ _ _ _ _ effect => exact effect.doneClearWhileBusy hs

/-! ### A step and the command it runs (40_command_lifecycle.md R110, R114) -/

/-- The CMD write of a legal byte while BUSY = 0 runs the meaning of its command. -/
theorem busWrite_cmd_decoded {v : Byte} {i : Instr} {s : State} (hidle : s.regs.busy = false) (hv : decode v = .ok i) :
    busWrite 0x20 v s = exec i s := by
  rw [busWrite_cmd_of_idle hidle, issueCommand, hv]

/-- A turn of HOST that writes a legal byte to CMD while BUSY = 0 runs the meaning of its command. -/
theorem step_cmd_decoded {s : State} {v : Byte} {i : Instr} {rest : List HostStmt} (hturn : turnOf s = .host)
    (hprog : s.program = .bus (.wr 0x20 v) :: rest) (hidle : s.regs.busy = false) (hv : decode v = .ok i) :
    step s = exec i { s with program := rest, sched := s.sched.tail } := by
  rw [step_host hturn hprog]
  exact busWrite_cmd_decoded hidle hv

/-- A turn of CORE is the CORE step. -/
theorem step_core {s : State} (hturn : turnOf s = .core) : step s = coreStep { s with sched := s.sched.tail } := by
  simp only [step, nextTurn, hturn, takeTurn]

theorem coreStep_of_pending {s : State} {i : Instr} (hbusy : s.regs.busy = true) (hpend : s.regs.pend = some i) :
    coreStep s = exec i s := by
  simp only [coreStep, hbusy, hpend, if_true]

theorem coreStep_of_idle {s : State} (hidle : s.regs.busy = false) : coreStep s = .next s := by
  simp only [coreStep, hidle, Bool.false_eq_true, if_false]

/-- The byte of a command laid by `withFetchWord` is decoded to that command. -/
theorem decode_fetchWord (i : Instr) : decode (BitVec.ofNat 8 (encode i).toNat) = .ok i := by
  rw [BitVec.ofNat_toNat, BitVec.setWidth_eq, decode_encode]

/-- Settles O5: a HOST turn through the CMD write, for the byte of `withFetchWord` too, and a CORE turn through the CORE step. -/
theorem stepRunsTheDecodedCommand : Obligations.StepRunsTheDecodedCommand := by
  refine ⟨fun s v i rest => step_cmd_decoded, fun s i hturn hbusy hpend => ?_, fun s i => ?_, fun s hturn hidle => ?_⟩
  · rw [step_core hturn]
    exact coreStep_of_pending hbusy hpend
  · exact step_cmd_decoded (s := s.withFetchWord 8 (encode i).toNat) rfl rfl rfl (decode_fetchWord i)
  · rw [step_core hturn]
    exact coreStep_of_idle hidle

/-! ### ReadSet (40_command_lifecycle.md R117) -/

/-! A class of ports pushed through the conditions of `portOf` is a condition on the address. -/

theorem portOf_isState (a : Byte) : isState (portOf a) = true ↔ 0x10 ≤ a.toNat ∧ a.toNat ≤ 0x1F := by
  simp only [portOf, apply_ite isState]
  simp [isState]
  omega

theorem portOf_isRkwin (a : Byte) : isRkwin (portOf a) = true ↔ 0x40 ≤ a.toNat ∧ a.toNat ≤ 0x4F := by
  simp only [portOf, apply_ite isRkwin]
  simp [isRkwin]
  omega

theorem portOf_isPadResult (a : Byte) : isPadResult (portOf a) = true ↔ a = 0x24 ∨ a = 0x25 := by
  simp only [portOf, apply_ite isPadResult]
  simp [isPadResult]
  bv_omega

theorem portOf_beq_gfR (a : Byte) : (portOf a == .gfR) = true ↔ a = 0x2A := by
  simp [portOf, apply_ite (· == Port.gfR)]
  bv_omega

/-- Settles O16: the ReadSets are made of four address ranges, GF_R, PADN and OUTLEN; STATUS lies in none of them. -/
theorem readSetAddresses : Obligations.ReadSetAddresses := by
  refine fun a => ⟨?nop, portOf_isRkwin a, ?keyclr, fun i hi => ?state, ?decf, portOf_isPadResult a, fun i hi => ?gfR, ?status⟩
  case nop => rintro _ rfl; rfl
  case keyclr =>
    show (isKey (portOf a) || isRkwin (portOf a)) = true ↔ _
    rw [Bool.or_eq_true, portOf_isKey, portOf_isRkwin]
  case state => fin_cases hi <;> exact portOf_isState a
  case decf =>
    show (isState (portOf a) || isPadResult (portOf a)) = true ↔ _
    rw [Bool.or_eq_true, portOf_isState, portOf_isPadResult]
  case gfR => fin_cases hi <;> exact portOf_beq_gfR a
  case status => intro i; cases i <;> rfl

/-! ### The issue of a command (40_command_lifecycle.md R110, R111, R113, R118) -/

/-- What a CMD write of a command leaves is told by the code of the first check that fails. -/
theorem issue_eq_afterIssue (i : Instr) (r : Regs) :
    issue i r = afterIssue i ((checkPreconditions i r).map errorCode) r := by
  rcases issue_cases i r with ⟨hcheck, hissue⟩ | ⟨c, hcheck, hissue⟩
  · rw [hissue, hcheck]; rfl
  · rw [hissue, hcheck]; rfl

/-- A byte of no command is illegal (30_encoding.md R94). -/
theorem decode_of_forall_encode_ne {v : Byte} (h : ∀ i : Instr, encode i ≠ v) : decode v = .error .illegalCmd := by
  unfold decode
  split
  next row hfind =>
    have hrow : row.1 = v := by simpa using List.find?_some hfind
    exact absurd ((encode_of_mem_opcodeTable row (List.mem_of_find?_eq_some hfind)).trans hrow) (h row.2)
  next => rfl

/-- A CMD write while BUSY = 1 is dropped with BUSY_WRITE, whatever the byte (20_memory.md R66). -/
theorem busWrite_cmd_of_busy {v : Byte} {s : State} (hbusy : s.regs.busy = true) :
    busWrite 0x20 v s = .next (s.setRegs (raiseError .busyWrite s.regs)) :=
  busWrite_of_busy hbusy rfl

/-- Settles O17: the three cases of a CMD write, the checks as the chain of `checkPreconditions_map_errorCode`. -/
theorem issueFollowsThePreconditions : Obligations.IssueFollowsThePreconditions := by
  refine ⟨fun s v hbusy => busWrite_cmd_of_busy hbusy, fun s v hidle hv => ?illegal, fun s i hidle => ?legal⟩
  case illegal => exact busWrite_cmd_illegal hidle (decode_of_forall_encode_ne hv)
  case legal =>
    rw [busWrite_cmd_decoded hidle (decode_encode i), exec_of_idle hidle, issue_eq_afterIssue,
      checkPreconditions_map_errorCode]

/-! ### The rule of a command as a whole, and NOP (40_command_lifecycle.md R119) -/

/-- The rule of a command as a whole, from its byte, the codes of its checks, and its effect where they pass. -/
theorem commandRule_of_perform {i : Instr} {op : Byte} {errorIf : Regs → Option Byte} {effect : Regs → Regs}
    (hop : decode op = .ok i) (hcheck : ∀ r, (checkPreconditions i r).map errorCode = errorIf r)
    (heffect : ∀ r, errorIf r = none → perform i r = effect r) : CommandRule i op errorIf effect := by
  refine ⟨hop, fun s hbusy hpass => ?_, fun s hidle => ?_, fun s hbusy => busWrite_cmd_of_busy hbusy⟩
  · rw [exec_of_busy hbusy, heffect s.regs hpass]
    rfl
  · rw [exec_of_idle hidle, issue_eq_afterIssue, hcheck]
    rfl

/-- Settles O21: NOP makes no check and its effect is nothing; `RUN NOP` from reset by `run_runStmt_accepted`. -/
theorem nopRule : Obligations.NopRule := by
  refine ⟨commandRule_of_perform (decode_encode .nop) (fun _ => rfl) (fun _ _ => rfl), ?_⟩
  exact ⟨_, run_runStmt_accepted (i := .nop) (rest := []) rfl rfl rfl rfl, by decide, by decide⟩

end Sys2Proof.Machine
end

section
/-! Proofs for 41_field_arithmetic.md: the laws of `double` and `multiply` (R130, R131, R133), the inverse (R134), and the commands
XTIME, GFMUL and DOT (R135 to R137).

`multiply` is additive in both arguments and doubling passes through it. Every byte is reached from 0x01 by adding and doubling
(`byte_induction`), so a law of `multiply` needs to be checked at 0x01 only. -/

namespace Sys2Proof.Machine

/-! ### The equations of the model's functions -/

theorem double_eq (a : Byte) : double a = if a.getLsbD 7 then (a <<< 1) ^^^ 0x1B else a <<< 1 := rfl

theorem double_zero : double 0x00 = 0x00 := rfl

theorem multiplyLoop_cons (a : Byte) (i : Nat) (is : List Nat) (p r : Byte) :
    multiplyLoop a (i :: is) p r = multiplyLoop a is (double p) (if a.getLsbD i then r ^^^ p else r) := rfl

theorem dotLoop_cons (a b : Quad) (i : Fin 4) (is : List (Fin 4)) (r : Byte) :
    dotLoop a b (i :: is) r = dotLoop a b is (r ^^^ multiply a[i] b[i]) := rfl

/-! ### Doubling and multiplying are additive -/

theorem xor_xor_xor_comm {w : Nat} (a b p q : BitVec w) : a ^^^ b ^^^ (p ^^^ q) = a ^^^ p ^^^ (b ^^^ q) := by
  rw [BitVec.xor_assoc, BitVec.xor_assoc, ← BitVec.xor_assoc b p q, BitVec.xor_comm b p, BitVec.xor_assoc p b q]

/-- Adding p to one sum when exactly one of two conditions holds is adding it to each part under its own condition. -/
theorem ite_xor_ite {w : Nat} (x y : Bool) (a b p : BitVec w) :
    (if x ^^ y then a ^^^ b ^^^ p else a ^^^ b) = (if x then a ^^^ p else a) ^^^ (if y then b ^^^ p else b) := by
  cases x <;> cases y
  · rfl
  · exact BitVec.xor_assoc a b p
  · show a ^^^ b ^^^ p = a ^^^ p ^^^ b
    rw [BitVec.xor_assoc, BitVec.xor_comm b p, BitVec.xor_assoc]
  · show a ^^^ b = a ^^^ p ^^^ (b ^^^ p)
    rw [← xor_xor_xor_comm, BitVec.xor_self, BitVec.xor_zero]

theorem double_xor (a b : Byte) : double (a ^^^ b) = double a ^^^ double b := by
  rw [double_eq, double_eq a, double_eq b, BitVec.getLsbD_xor, BitVec.shiftLeft_xor_distrib, ite_xor_ite]

/-- The loop is additive in the bits it looks at. -/
theorem multiplyLoop_xor_left (a a' : Byte) (is : List Nat) (p r r' : Byte) :
    multiplyLoop (a ^^^ a') is p (r ^^^ r') = multiplyLoop a is p r ^^^ multiplyLoop a' is p r' := by
  induction is generalizing p r r' with
  | nil => rfl
  | cons i is ih => rw [multiplyLoop_cons, multiplyLoop_cons, multiplyLoop_cons, ← ih, BitVec.getLsbD_xor, ite_xor_ite]

/-- The loop is additive in the running value and the result. -/
theorem multiplyLoop_xor_right (a : Byte) (is : List Nat) (p p' r r' : Byte) :
    multiplyLoop a is (p ^^^ p') (r ^^^ r') = multiplyLoop a is p r ^^^ multiplyLoop a is p' r' := by
  induction is generalizing p p' r r' with
  | nil => rfl
  | cons i is ih =>
    rw [multiplyLoop_cons, multiplyLoop_cons, multiplyLoop_cons, ← ih, double_xor]
    by_cases hi : a.getLsbD i
    · rw [if_pos hi, if_pos hi, if_pos hi, xor_xor_xor_comm]
    · rw [if_neg hi, if_neg hi, if_neg hi]

theorem multiplyLoop_double (a : Byte) (is : List Nat) (p r : Byte) :
    multiplyLoop a is (double p) (double r) = double (multiplyLoop a is p r) := by
  induction is generalizing p r with
  | nil => rfl
  | cons i is ih => rw [multiplyLoop_cons, multiplyLoop_cons, ← ih, apply_ite double, double_xor]

/-- What adding and doubling keep holds of the loop's result when it holds of the values the loop starts from. -/
theorem multiplyLoop_induction {P : Byte → Prop} (hdouble : ∀ a, P a → P (double a)) (hxor : ∀ a b, P a → P b → P (a ^^^ b))
    (a : Byte) (is : List Nat) {p r : Byte} (hp : P p) (hr : P r) : P (multiplyLoop a is p r) := by
  induction is generalizing p r with
  | nil => exact hr
  | cons i is ih =>
    refine ih (hdouble p hp) ?_
    by_cases hi : a.getLsbD i
    · rw [if_pos hi]
      exact hxor r p hr hp
    · rwa [if_neg hi]

theorem multiply_xor (a b c : Byte) : multiply a (b ^^^ c) = multiply a b ^^^ multiply a c :=
  multiplyLoop_xor_right a _ b c 0x00 0x00

theorem xor_multiply (a b c : Byte) : multiply (a ^^^ b) c = multiply a c ^^^ multiply b c :=
  multiplyLoop_xor_left a b _ c 0x00 0x00

theorem multiply_double (a b : Byte) : multiply a (double b) = double (multiply a b) :=
  multiplyLoop_double a _ b 0x00

/-! ### The ring laws (R133 (i) to (vi), (viii)) -/

/-- A byte is the sum of its two halves. -/
theorem byte_eq_xor_halves (a : Byte) : a = (a.extractLsb' 4 4 ++ 0#4) ^^^ (0#4 ++ a.extractLsb' 0 4) := by
  apply BitVec.eq_of_getLsbD_eq
  intro k hk
  rw [BitVec.getLsbD_xor, BitVec.getLsbD_append, BitVec.getLsbD_append]
  by_cases hlow : k < 4
  · simp [hlow]
  · have hshift : 4 + (k - 4) = k := by omega
    have hlt : k - 4 < 4 := by omega
    simp [hlow, hlt, hshift]

/-- The loop rebuilds a from the doublings of 0x01, one per bit: checked for each half of the byte. -/
theorem multiply_one (a : Byte) : multiply a 0x01 = a := by
  have hhigh : ∀ x : BitVec 4, multiply (x ++ 0#4) 0x01 = x ++ 0#4 := by decide
  have hlow : ∀ x : BitVec 4, multiply (0#4 ++ x) 0x01 = 0#4 ++ x := by decide
  rw [byte_eq_xor_halves a, xor_multiply, hhigh, hlow]

/-- Every byte is made of 0x00 and 0x01 by doubling and adding: `a` is `multiply a 0x01`, whose loop does nothing else. -/
theorem byte_induction {P : Byte → Prop} (a : Byte) (hzero : P 0x00) (hone : P 0x01) (hdouble : ∀ a, P a → P (double a))
    (hxor : ∀ a b, P a → P b → P (a ^^^ b)) : P a :=
  multiply_one a ▸ multiplyLoop_induction hdouble hxor a [0, 1, 2, 3, 4, 5, 6, 7] hone hzero

theorem multiply_zero (a : Byte) : multiply a 0x00 = 0x00 := by
  have hsum := multiply_xor a 0x00 0x00
  rwa [BitVec.xor_self, BitVec.xor_self] at hsum

theorem zero_multiply (a : Byte) : multiply 0x00 a = 0x00 := by
  have hsum := xor_multiply 0x00 0x00 a
  rwa [BitVec.xor_self, BitVec.xor_self] at hsum

theorem one_multiply (a : Byte) : multiply 0x01 a = a := by
  induction a using byte_induction with
  | hzero => rfl
  | hone => rfl
  | hdouble a ih => rw [multiply_double, ih]
  | hxor a b iha ihb => rw [multiply_xor, iha, ihb]

theorem double_multiply (a b : Byte) : multiply (double a) b = double (multiply a b) := by
  induction b using byte_induction with
  | hzero => rw [multiply_zero, multiply_zero, double_zero]
  | hone => rw [multiply_one, multiply_one]
  | hdouble b ih => rw [multiply_double, multiply_double, ih]
  | hxor b c ihb ihc => rw [multiply_xor, multiply_xor, ihb, ihc, double_xor]

theorem multiply_comm (a b : Byte) : multiply a b = multiply b a := by
  induction b using byte_induction with
  | hzero => rw [multiply_zero, zero_multiply]
  | hone => rw [multiply_one, one_multiply]
  | hdouble b ih => rw [multiply_double, double_multiply, ih]
  | hxor b c ihb ihc => rw [multiply_xor, xor_multiply, ihb, ihc]

theorem multiply_assoc (a b c : Byte) : multiply (multiply a b) c = multiply a (multiply b c) := by
  induction c using byte_induction with
  | hzero => rw [multiply_zero, multiply_zero, multiply_zero]
  | hone => rw [multiply_one, multiply_one]
  | hdouble c ih => rw [multiply_double, multiply_double, multiply_double, ih]
  | hxor c d ihc ihd => rw [multiply_xor, multiply_xor, multiply_xor, ihc, ihd]

theorem multiply_two (a : Byte) : multiply a 0x02 = double a := by
  have htwo : (0x02 : Byte) = double 0x01 := rfl
  rw [htwo, multiply_double, multiply_one]

theorem iterate_double_eq_multiply (n : Nat) (a : Byte) : double^[n] a = multiply a (double^[n] 0x01) := by
  induction n with
  | zero => exact (multiply_one a).symm
  | succ n ih => rw [Function.iterate_succ_apply', Function.iterate_succ_apply', multiply_double, ih]

/-! ### Powers, and the order of 0x03 (R133 (vii)) -/

/-- Multiplying n times by a is one multiplication by the n-th power of a. -/
theorem multiply_pow (a : Byte) (n : Nat) : multiply ((multiply a)^[n] 0x01) = (multiply a)^[n] := by
  funext b
  induction n with
  | zero => exact one_multiply b
  | succ n ih => rw [Function.iterate_succ_apply', Function.iterate_succ_apply', multiply_assoc, ih]

theorem multiply_pow_pow (a : Byte) (m n : Nat) :
    multiply ((multiply a)^[m] 0x01) ((multiply a)^[n] 0x01) = (multiply a)^[m + n] 0x01 := by
  rw [multiply_pow, Function.iterate_add_apply]

/-- A power of a power, the inner one given by its value. -/
theorem pow_mul_of_pow_eq {a b : Byte} {m : Nat} (h : (multiply a)^[m] 0x01 = b) (n : Nat) :
    (multiply a)^[m * n] 0x01 = (multiply b)^[n] 0x01 := by
  rw [Function.iterate_mul, ← multiply_pow, h]

/-- A count of steps that returns is the period when none of its proper divisors returns. -/
theorem minimalPeriod_eq_of_properDivisors {f : Byte → Byte} {x : Byte} {N : Nat} (hpos : 0 < N) (hN : f^[N] x = x)
    (hdiv : ∀ d ∈ N.properDivisors, f^[d] x ≠ x) : Function.minimalPeriod f x = N := by
  have hperiod : Function.IsPeriodicPt f N x := hN
  by_contra hne
  have hproper := Nat.mem_properDivisors.2 ⟨hperiod.minimalPeriod_dvd, lt_of_le_of_ne (hperiod.minimalPeriod_le hpos) hne⟩
  exact hdiv _ hproper Function.iterate_minimalPeriod

/-- A period is the smallest positive count of steps that returns. -/
theorem iterate_of_minimalPeriod_eq {f : Byte → Byte} {x : Byte} {N : Nat} (h : Function.minimalPeriod f x = N) :
    f^[N] x = x ∧ ∀ n, 0 < n → n < N → f^[n] x ≠ x := by
  subst h
  exact ⟨Function.iterate_minimalPeriod, fun n hpos hlt =>
    Function.not_isPeriodicPt_of_pos_of_lt_minimalPeriod (Nat.pos_iff_ne_zero.1 hpos) hlt⟩

theorem properDivisors_255 : Nat.properDivisors 255 = {1, 3, 5, 15, 17, 51, 85} := by decide

/-- The order of 0x03: its powers to 51, 85 and 255 are 17th powers of smaller ones. -/
theorem minimalPeriod_multiply_three_one : Function.minimalPeriod (multiply 0x03) 0x01 = 255 := by
  have h51 : (multiply 0x03)^[51] 0x01 ≠ 0x01 := by
    rw [pow_mul_of_pow_eq (m := 3) (b := 0x0F) (by decide) 17]
    decide
  have h85 : (multiply 0x03)^[85] 0x01 ≠ 0x01 := by
    rw [pow_mul_of_pow_eq (m := 5) (b := 0x33) (by decide) 17]
    decide
  have h255 : (multiply 0x03)^[255] 0x01 = 0x01 := by
    rw [pow_mul_of_pow_eq (m := 15) (b := 0x35) (by decide) 17]
    decide
  refine minimalPeriod_eq_of_properDivisors (by decide) h255 ?_
  rw [properDivisors_255]
  simp only [Finset.forall_mem_insert, Finset.mem_singleton, forall_eq]
  exact ⟨by decide, by decide, by decide, by decide, by decide, h51, h85⟩

/-- No power of 0x03 is 0x00, from which multiplying would not come back to 0x01. -/
theorem pow_three_ne_zero (n : Nat) : (multiply 0x03)^[n] 0x01 ≠ 0x00 := by
  intro hn
  have hinv : multiply 0xF6 0x03 = 0x01 := by decide
  have hleft : Function.LeftInverse (multiply 0xF6) (multiply 0x03) := fun a => by
    rw [← multiply_assoc, hinv, one_multiply]
  rw [← Function.iterate_fixed (multiply_zero 0x03) n] at hn
  exact absurd (hleft.injective.iterate n hn) (by decide)

/-- 0x03 generates the nonzero bytes: its 255 powers are distinct, and there are 255 nonzero bytes. -/
theorem exists_eq_pow_three {a : Byte} (h : a ≠ 0x00) : ∃ n, (multiply 0x03)^[n] 0x01 = a := by
  have hinj : Set.InjOn (fun n => (multiply 0x03)^[n] 0x01) (Finset.range 255) := by
    have hbelow := Function.iterate_injOn_Iio_minimalPeriod (f := multiply 0x03) (x := 0x01)
    rwa [minimalPeriod_multiply_three_one, ← Finset.coe_range] at hbelow
  have hall : (Finset.range 255).image (fun n => (multiply 0x03)^[n] 0x01) = Finset.univ.erase 0x00 := by
    refine Finset.eq_of_subset_of_card_le (fun b hb => ?_) ?_
    · obtain ⟨n, -, rfl⟩ := Finset.mem_image.1 hb
      exact Finset.mem_erase.2 ⟨pow_three_ne_zero n, Finset.mem_univ _⟩
    · rw [Finset.card_image_of_injOn hinj, Finset.card_erase_of_mem (Finset.mem_univ _), Finset.card_univ,
        ← FinEnum.card_eq_fintypeCard, FinEnum.card_bitVec, Finset.card_range]
      decide
  have ha : a ∈ Finset.univ.erase 0x00 := Finset.mem_erase.2 ⟨h, Finset.mem_univ a⟩
  rw [← hall, Finset.mem_image] at ha
  obtain ⟨n, -, hn⟩ := ha
  exact ⟨n, hn⟩

theorem pow_255_eq_one {a : Byte} (h : a ≠ 0x00) : (multiply a)^[255] 0x01 = 0x01 := by
  obtain ⟨n, hn⟩ := exists_eq_pow_three h
  have hreturns : Function.IsPeriodicPt (multiply 0x03) 255 0x01 :=
    (iterate_of_minimalPeriod_eq minimalPeriod_multiply_three_one).1
  calc (multiply a)^[255] 0x01
    _ = (multiply 0x03)^[n * 255] 0x01 := (pow_mul_of_pow_eq hn 255).symm
    _ = 0x01 := hreturns.const_mul n

/-! ### The inverse (R134) -/

/-- `inverse` multiplies the powers to 2, 4, ..., 128, and 254 is the sum of these exponents. -/
theorem inverse_eq_pow (a : Byte) : inverse a = (multiply a)^[254] 0x01 := by
  have hsquare : multiply a a = (multiply a)^[2] 0x01 := by
    rw [Function.iterate_succ_apply, Function.iterate_one, multiply_one]
  have hadd := multiply_pow_pow a
  simp only [inverse, hsquare, hadd, Nat.reduceAdd]

theorem multiply_inverse {a : Byte} (h : a ≠ 0x00) : multiply a (inverse a) = 0x01 := by
  calc multiply a (inverse a)
    _ = multiply a ((multiply a)^[254] 0x01) := by rw [inverse_eq_pow]
    _ = (multiply a)^[255] 0x01 := (Function.iterate_succ_apply' (multiply a) 254 0x01).symm
    _ = 0x01 := pow_255_eq_one h

theorem inverse_multiply_multiply {a : Byte} (h : a ≠ 0x00) (b : Byte) : multiply (inverse a) (multiply a b) = b := by
  rw [← multiply_assoc, multiply_comm _ a, multiply_inverse h, one_multiply]

theorem multiply_left_injective {a : Byte} (h : a ≠ 0x00) : Function.Injective (multiply a) :=
  Function.LeftInverse.injective (inverse_multiply_multiply h)

/-- Settles O43: multiplication by a nonzero byte is injective, so `inverse a`, its 254th power, is the only byte with the product
0x01. -/
theorem inverseIsTheUniqueOne : Obligations.InverseIsTheUniqueOne :=
  ⟨rfl, fun _ ha => ⟨multiply_inverse ha, fun _ hy => multiply_left_injective ha (hy.trans (multiply_inverse ha).symm)⟩,
    inverse_eq_pow⟩

/-! ### The laws together (R133) -/

/-- 0x02 is 0x03 to the 25th power. -/
theorem minimalPeriod_double_one : Function.minimalPeriod double 0x01 = 51 := by
  have htwo : (multiply 0x03)^[25] 0x01 = 0x02 := by decide
  have hpow : double = (multiply 0x03)^[25] := by
    funext a
    rw [← multiply_pow, htwo, multiply_comm, multiply_two]
  rw [hpow, Function.minimalPeriod_iterate_eq_div_gcd (by decide), minimalPeriod_multiply_three_one]
  rfl

/-- Every nonzero byte has the period of 0x01 under doubling. -/
theorem minimalPeriod_double {a : Byte} (h : a ≠ 0x00) : Function.minimalPeriod double a = 51 := by
  rw [← minimalPeriod_double_one, Function.minimalPeriod_eq_minimalPeriod_iff]
  intro n
  calc double^[n] a = a
    _ ↔ multiply a (double^[n] 0x01) = multiply a 0x01 := by rw [iterate_double_eq_multiply, multiply_one]
    _ ↔ double^[n] 0x01 = 0x01 := (multiply_left_injective h).eq_iff

/-- Settles O41: the ring laws by `byte_induction`, the orders by the periods of 0x01 under `double` and `multiply 0x03`. -/
theorem fieldLaws : Obligations.FieldLaws :=
  ⟨multiply_comm, multiply_one, multiply_assoc, multiply_zero, multiply_xor, multiply_two,
    fun _ ha => iterate_of_minimalPeriod_eq (minimalPeriod_double ha),
    iterate_of_minimalPeriod_eq minimalPeriod_multiply_three_one, iterate_double_eq_multiply 4⟩

/-! ### `multiply` as a product of polynomials (R131) -/

/-- One turn of R131's loop, on the result and the running value. -/
def multiplyStep (a : Byte) (q : Byte × Byte) (i : Nat) : Byte × Byte :=
  (if a.getLsbD i then q.1 ^^^ q.2 else q.1, double q.2)

theorem multiplyLoop_eq_foldl (a : Byte) (is : List Nat) (p r : Byte) :
    multiplyLoop a is p r = (is.foldl (multiplyStep a) (r, p)).1 := by
  induction is generalizing p r with
  | nil => rfl
  | cons i is ih => exact ih _ _

/-- One term of the product without carries. -/
def productStep (a b : Byte) (c : BitVec 16) (i : Nat) : BitVec 16 :=
  if a.getLsbD i then c ^^^ (b.setWidth 16 <<< i) else c

/-- Bit i cleared by adding the polynomial 0x11B shifted to it. -/
def reduceStep (c : BitVec 16) (i : Nat) : BitVec 16 :=
  if c.getLsbD i then c ^^^ ((0x11B : BitVec 16) <<< (i - 8)) else c

theorem reduceStep_eq (c : BitVec 16) (i : Nat) :
    reduceStep c i = if c.getLsbD i then c ^^^ ((0x11B : BitVec 16) <<< (i - 8)) else c := rfl

/-- The bits reduction clears, from the top, below bit 14. -/
def bitsBelowTop : List Nat := [13, 12, 11, 10, 9, 8]

/-- A polynomial of 15 bits reduced modulo 0x11B. -/
def reduce (c : BitVec 16) : Byte := (bitsBelowTop.foldl reduceStep (reduceStep c 14)).setWidth 8

theorem reduce_eq (c : BitVec 16) : reduce c = (bitsBelowTop.foldl reduceStep (reduceStep c 14)).setWidth 8 := rfl

theorem reduceStep_xor (c d : BitVec 16) (i : Nat) : reduceStep (c ^^^ d) i = reduceStep c i ^^^ reduceStep d i := by
  rw [reduceStep_eq, reduceStep_eq c, reduceStep_eq d, BitVec.getLsbD_xor, ite_xor_ite]

theorem foldl_reduceStep_xor (is : List Nat) (c d : BitVec 16) :
    is.foldl reduceStep (c ^^^ d) = is.foldl reduceStep c ^^^ is.foldl reduceStep d := by
  induction is generalizing c d with
  | nil => rfl
  | cons i is ih => rw [List.foldl_cons, List.foldl_cons, List.foldl_cons, reduceStep_xor, ih]

theorem reduce_xor (c d : BitVec 16) : reduce (c ^^^ d) = reduce c ^^^ reduce d := by
  rw [reduce_eq, reduceStep_xor, foldl_reduceStep_xor, BitVec.setWidth_xor, reduce_eq c, reduce_eq d]

theorem reduceStep_of_bit_false {c : BitVec 16} {i : Nat} (h : c.getLsbD i = false) : reduceStep c i = c :=
  if_neg (by rw [h]; exact Bool.false_ne_true)

/-- Clearing bit i + 1 of a shifted polynomial is clearing bit i before the shift. -/
theorem reduceStep_shiftLeft (c : BitVec 16) {i : Nat} (hi : 8 ≤ i) (hi' : i < 15) :
    reduceStep (c <<< 1) (i + 1) = reduceStep c i <<< 1 := by
  have hlt : i + 1 < 16 := by omega
  have hbit : (c <<< 1).getLsbD (i + 1) = c.getLsbD i := by simpa using fun _ => hlt
  have hpoly : (0x11B : BitVec 16) <<< (i + 1 - 8) = (0x11B : BitVec 16) <<< (i - 8) <<< 1 := by
    rw [Nat.sub_add_comm hi, BitVec.shiftLeft_add]
  rw [reduceStep_eq, reduceStep_eq c, hbit, hpoly]
  by_cases hc : c.getLsbD i
  · rw [if_pos hc, if_pos hc, BitVec.shiftLeft_xor_distrib]
  · rw [if_neg hc, if_neg hc]

theorem foldl_reduceStep_shiftLeft {is : List Nat} (h : ∀ i ∈ is, 8 ≤ i ∧ i < 15) (c : BitVec 16) :
    (is.map (· + 1)).foldl reduceStep (c <<< 1) = is.foldl reduceStep c <<< 1 := by
  induction is generalizing c with
  | nil => rfl
  | cons i is ih =>
    obtain ⟨⟨hi, hi'⟩, his⟩ := List.forall_mem_cons.1 h
    rw [List.map_cons, List.foldl_cons, List.foldl_cons, reduceStep_shiftLeft c hi hi', ih his]

/-- Clearing bit 8 of a shifted polynomial is what `double` does with bit 7. -/
theorem setWidth_reduceStep_shiftLeft (c : BitVec 16) : (reduceStep (c <<< 1) 8).setWidth 8 = double (c.setWidth 8) := by
  have hbit : (c <<< 1).getLsbD 8 = (c.setWidth 8).getLsbD 7 := by simp
  have hshift : (c <<< 1).setWidth 8 = c.setWidth 8 <<< 1 := by
    ext k hk
    simp
  have hpoly : ((0x11B : BitVec 16) <<< (8 - 8)).setWidth 8 = 0x1B := by decide
  rw [reduceStep_eq, double_eq, apply_ite (BitVec.setWidth 8), BitVec.setWidth_xor, hbit, hshift, hpoly]

/-- Reduction turns multiplication by x into doubling. -/
theorem reduce_shiftLeft_one {c : BitVec 16} (h : c.getLsbD 14 = false) : reduce (c <<< 1) = double (reduce c) := by
  calc reduce (c <<< 1)
    _ = (reduceStep ((bitsBelowTop.map (· + 1)).foldl reduceStep (c <<< 1)) 8).setWidth 8 := rfl
    _ = (reduceStep (bitsBelowTop.foldl reduceStep c <<< 1) 8).setWidth 8 := by rw [foldl_reduceStep_shiftLeft (by decide)]
    _ = double ((bitsBelowTop.foldl reduceStep c).setWidth 8) := setWidth_reduceStep_shiftLeft _
    _ = double (reduce c) := by rw [reduce_eq, reduceStep_of_bit_false h]

/-- A polynomial of 8 bits has nothing to clear. -/
theorem reduce_setWidth (b : Byte) : reduce (b.setWidth 16) = b := by
  simp [reduce, bitsBelowTop, reduceStep]

theorem reduce_shiftLeft (b : Byte) {i : Nat} (hi : i < 8) : reduce (b.setWidth 16 <<< i) = double^[i] b := by
  induction i with
  | zero => rw [BitVec.shiftLeft_zero, Function.iterate_zero_apply, reduce_setWidth]
  | succ i ih =>
    have hbit : (b.setWidth 16 <<< i).getLsbD 14 = false := by
      rw [BitVec.getLsbD_shiftLeft, BitVec.getLsbD_setWidth, BitVec.getLsbD_of_ge b (14 - i) (by omega), Bool.and_false,
        Bool.and_false]
    rw [BitVec.shiftLeft_add, reduce_shiftLeft_one hbit, ih (by omega), Function.iterate_succ_apply']

theorem reduce_productStep (a b : Byte) (c : BitVec 16) {i : Nat} (hi : i < 8) :
    reduce (productStep a b c i) = if a.getLsbD i then reduce c ^^^ double^[i] b else reduce c := by
  rw [← reduce_shiftLeft b hi, ← reduce_xor]
  exact apply_ite reduce _ _ _

/-- After n turns R131's loop holds the reduced product of b with the low n bits of a, and b doubled n times. -/
theorem foldl_multiplyStep (a b : Byte) (n : Nat) (hn : n ≤ 8) :
    (List.range n).foldl (multiplyStep a) (0x00, b) = (reduce ((List.range n).foldl (productStep a b) 0), double^[n] b) := by
  induction n with
  | zero => exact Prod.ext (by decide : (0x00 : Byte) = reduce 0) rfl
  | succ n ih =>
    rw [List.range_succ, List.foldl_append, List.foldl_append, ih (by omega), List.foldl_cons, List.foldl_cons, List.foldl_nil,
      List.foldl_nil, reduce_productStep a b _ hn, Function.iterate_succ_apply']
    rfl

/-- Settles O42: the loop as a fold, and `foldl_multiplyStep` at all eight bits. -/
theorem multiplyIsTheReducedProduct : Obligations.MultiplyIsTheReducedProduct := by
  refine ⟨rfl, fun a b => ?_⟩
  have hloop : multiply a b = ((List.range 8).foldl (multiplyStep a) (0x00, b)).1 := multiplyLoop_eq_foldl a _ b 0x00
  have hproduct : multiply a b = reduce ((List.range 8).foldl (productStep a b) 0) := by
    rw [hloop, foldl_multiplyStep a b 8 le_rfl]
  exact ⟨hloop, hproduct⟩

/-! ### The dot product (R132) and the commands (R135 to R137) -/

theorem dot_succ (a b : Quad) (n : Fin 4) : dot a b (n.val + 1) = dot a b n.val ^^^ multiply a[n] b[n] :=
  match n with
  | 0 | 1 | 2 | 3 => rfl

theorem dotLoop_congr {a b a' b' : Quad} {is : List (Fin 4)} (h : ∀ i ∈ is, a[i] = a'[i] ∧ b[i] = b'[i]) (r : Byte) :
    dotLoop a b is r = dotLoop a' b' is r := by
  induction is generalizing r with
  | nil => rfl
  | cons i is ih =>
    obtain ⟨⟨ha, hb⟩, his⟩ := List.forall_mem_cons.1 h
    rw [dotLoop_cons, dotLoop_cons, ha, hb, ih his]

/-- `dot` reads no element at or past its length. -/
theorem dot_congr {a b a' b' : Quad} {n : Nat} (h : ∀ i : Fin 4, i.val < n → a[i] = a'[i] ∧ b[i] = b'[i]) :
    dot a b n = dot a' b' n := by
  refine dotLoop_congr (fun i hi => h i ?_) 0x00
  have hrange : ([0, 1, 2, 3] : List (Fin 4)) = List.finRange 4 := rfl
  rw [hrange, List.mem_take_iff_getElem] at hi
  obtain ⟨j, hj, rfl⟩ := hi
  rw [List.getElem_finRange]
  exact lt_of_lt_of_le hj (Nat.min_le_left n _)

/-- Settles O22: the rules by `commandRule_of_perform`, the corner cases by the field laws. -/
theorem fieldCommandRules : Obligations.FieldCommandRules := by
  refine ⟨?xtime, by decide, ?gfmul, ?corners, by decide, ?dot, fun a b => ⟨rfl, ?dotOne⟩, dot_succ, fun _ _ _ _ _ => dot_congr,
    by decide, by decide⟩
  case xtime => exact commandRule_of_perform (decode_encode .xtime) (fun _ => rfl) (fun _ _ => rfl)
  case gfmul => exact commandRule_of_perform (decode_encode .gfmul) (fun _ => rfl) (fun _ _ => rfl)
  case corners => exact fun a b => ⟨zero_multiply b, multiply_zero a, one_multiply b, multiply_one a, multiply_comm a b⟩
  case dot =>
    refine commandRule_of_perform (decode_encode .dot) (fun r => ?_) (fun _ _ => rfl)
    rw [checkPreconditions_dot, apply_ite (Option.map errorCode)]
    rfl
  case dotOne => exact (dot_succ a b 0).trans BitVec.zero_xor

end Sys2Proof.Machine
end

section
/-! Proofs for 42_sbox.md: what the ROMs hold (R150, R152, R154; RCON by 43_key_schedule.md R171) and the commands SBOX and ISBOX
(R155, R156).

The tables are data, so three facts about their entries are checked byte by byte; the other laws follow from these and from the
field laws. -/

namespace Sys2Proof.Machine

/-! ### INVSBOX undoes SBOX (R152, R154) -/

theorem invSubByte_subByte (b : Byte) : invSubByte (subByte b) = b := by
  revert b; decide

/-- A left inverse on the finite type of bytes is a right inverse. -/
theorem subByte_invSubByte (b : Byte) : subByte (invSubByte b) = b := by
  have hleft : Function.LeftInverse invSubByte subByte := invSubByte_subByte
  exact hleft.rightInverse_of_surjective (Finite.surjective_of_injective hleft.injective) b

/-- No byte is sent to itself or to its complement (R154). -/
theorem subByte_ne_self_and_ne_complement (b : Byte) : subByte b ≠ b ∧ subByte b ≠ b ^^^ 0xFF := by
  revert b; decide

/-! ### SBOX is the affine transform of the inverse (R150) -/

/-- INVSBOX takes the affine transform of y to the byte whose product with y is 0x01. -/
theorem multiply_invSubByte_affine {y : Byte} (h : y ≠ 0x00) : multiply y (invSubByte (affine y)) = 0x01 := by
  revert y; decide

theorem inverse_ne_zero {a : Byte} (h : a ≠ 0x00) : inverse a ≠ 0x00 := by
  intro hzero
  have hone := multiply_inverse h
  rw [hzero, multiply_zero] at hone
  exact absurd hone (by decide)

/-- For b ≠ 0x00 both b and INVSBOX at the affine transform of `inverse b` have the product 0x01 with `inverse b`, so they are the
same byte. -/
theorem subByte_eq_affine_inverse (b : Byte) : subByte b = affine (inverse b) := by
  by_cases hb : b = 0x00
  · subst hb
    rfl
  · have hinv : inverse b ≠ 0x00 := inverse_ne_zero hb
    have hproduct : multiply (inverse b) b = multiply (inverse b) (invSubByte (affine (inverse b))) := by
      rw [multiply_invSubByte_affine hinv, multiply_comm, multiply_inverse hb]
    calc subByte b
      _ = subByte (invSubByte (affine (inverse b))) := congrArg subByte (multiply_left_injective hinv hproduct)
      _ = affine (inverse b) := subByte_invSubByte _

/-! ### RCON (43_key_schedule.md R171) -/

theorem rcon_succ {i : Nat} (h1 : 1 ≤ i) (h9 : i ≤ 9) : rcon (i + 1) = double (rcon i) := by
  interval_cases i <;> rfl

/-! ### The statements -/

/-- Settles O44: the inverse laws, the entries by `subByte_eq_affine_inverse`, the doublings by `rcon_succ`. -/
theorem romsHoldTheirConstruction : Obligations.RomsHoldTheirConstruction :=
  ⟨subByte_eq_affine_inverse, fun b => ⟨invSubByte_subByte b, subByte_invSubByte b⟩, subByte_ne_self_and_ne_complement, rfl,
    fun _ h1 h9 => rcon_succ h1 h9, rfl⟩

/-- Settles O23: the rules by `commandRule_of_perform`, the corner cases by the laws of the ROMs. -/
theorem byteLookupRules : Obligations.ByteLookupRules := by
  refine ⟨?sbox, ⟨by decide, by decide, by decide, by decide, fun b => (subByte_ne_self_and_ne_complement b).1⟩, ?isbox,
    ⟨by decide, by decide, by decide, by decide, invSubByte_subByte⟩⟩
  case sbox => exact commandRule_of_perform (decode_encode .sbox) (fun _ => rfl) (fun _ _ => rfl)
  case isbox => exact commandRule_of_perform (decode_encode .isbox) (fun _ => rfl) (fun _ _ => rfl)

end Sys2Proof.Machine
end

section
/-! Proofs for 43_key_schedule.md: the recurrence and the layout of the expansion (R174, R175), that it determines the key (R179), and
the commands KEYEXP and KEYCLR (R176, R178).

The model expands round key by round key (log 21). The recurrence is proved in the same order: first for the columns of one
`nextRoundKey`, then for words by their index in the expansion, then byte by byte. -/

namespace Sys2Proof.Machine

/-! ### Words byte by byte (R172 to R174) -/

theorem xorWord_getElem (t u : Quad) (b : Fin 4) : (xorWord t u)[b] = t[b] ^^^ u[b] :=
  Vector.getElem_zipWith b.isLt

/-- The word that starts a round: rotated by one, substituted, RCON added to byte 0. -/
theorem startWord_getElem (rc : Byte) (t : Quad) (b : Fin 4) : (startWord rc t)[b] =
    if b = 0 then subByte t[1] ^^^ rc else if b = 1 then subByte t[2] else if b = 2 then subByte t[3] else subByte t[0] := by
  fin_cases b <;> simp [startWord, subWord, rotWord]

/-! ### Columns of one round key from the round key before it (R174, R175) -/

theorem column_blockOf (words : Vector Quad 4) (c : Fin 4) : column (blockOf fun r c => words[c][r]) c = words[c] := by
  ext r hr
  rw [column_getElem, cell_blockOf]
  rfl

theorem column_nextRoundKey_zero (rc : Byte) (k : Block) :
    column (nextRoundKey rc k) 0 = xorWord (startWord rc (column k 3)) (column k 0) :=
  column_blockOf _ 0

theorem column_nextRoundKey_succ (rc : Byte) (k : Block) (c : Fin 3) :
    column (nextRoundKey rc k) c.succ = xorWord (column (nextRoundKey rc k) c.castSucc) (column k c.succ) := by
  simp only [nextRoundKey, column_blockOf]
  match c with
  | 0 | 1 | 2 => rfl

/-! ### Words by their index in the expansion (R174, R175) -/

/-- Word k of round key j is word 4j + k of the expansion (R175). -/
theorem expandedWord_eq_column (key : Block) (j : Nat) (k : Fin 4) :
    expandedWord key (4 * j + k.val) = column (roundKeyAt key j) k := by
  have hround : (4 * j + k.val) / 4 = j := by omega
  have hword : (4 * j + k.val) % 4 = k.val := by omega
  simp only [expandedWord, hround, hword]

/-- Byte 4k + b of round key j is byte b of word 4j + k (R174). -/
theorem roundKeyAt_getElem (key : Block) (j : Nat) (k b : Fin 4) :
    (roundKeyAt key j)[4 * k.val + b.val] = (expandedWord key (4 * j + k.val))[b] := by
  rw [expandedWord_eq_column]
  simp [cell, Nat.add_comm]

theorem expandedWord_starting_round (key : Block) (j : Nat) : expandedWord key (4 * (j + 1)) =
    xorWord (startWord (rcon (j + 1)) (expandedWord key (4 * j + 3))) (expandedWord key (4 * j)) := by
  have hprevious : expandedWord key (4 * j + 3) = column (roundKeyAt key j) 3 := expandedWord_eq_column key j 3
  have hearlier : expandedWord key (4 * j) = column (roundKeyAt key j) 0 := expandedWord_eq_column key j 0
  rw [hprevious, hearlier]
  exact (expandedWord_eq_column key (j + 1) 0).trans (column_nextRoundKey_zero _ _)

theorem expandedWord_within_round (key : Block) (j : Nat) (c : Fin 3) : expandedWord key (4 * (j + 1) + (c.val + 1)) =
    xorWord (expandedWord key (4 * (j + 1) + c.val)) (expandedWord key (4 * j + (c.val + 1))) := by
  have hprevious : expandedWord key (4 * (j + 1) + c.val) = column (roundKeyAt key (j + 1)) c.castSucc :=
    expandedWord_eq_column key (j + 1) c.castSucc
  have hearlier : expandedWord key (4 * j + (c.val + 1)) = column (roundKeyAt key j) c.succ :=
    expandedWord_eq_column key j c.succ
  rw [hprevious, hearlier]
  exact (expandedWord_eq_column key (j + 1) c.succ).trans (column_nextRoundKey_succ _ _ c)

/-- The body of R174's loop, as an equation of words. -/
theorem expandedWord_recurrence (key : Block) {i : Nat} (h : 4 ≤ i) : expandedWord key i =
    xorWord (if i % 4 = 0 then startWord (rcon (i / 4)) (expandedWord key (i - 1)) else expandedWord key (i - 1))
      (expandedWord key (i - 4)) := by
  obtain ⟨j, hj⟩ : ∃ j, i / 4 = j + 1 := ⟨i / 4 - 1, by omega⟩
  by_cases h0 : i % 4 = 0
  · obtain rfl : i = 4 * (j + 1) := by omega
    rw [if_pos h0, hj]
    exact expandedWord_starting_round key j
  · obtain ⟨c, hc⟩ : ∃ c : Fin 3, i % 4 = c.val + 1 := ⟨⟨i % 4 - 1, by omega⟩, by dsimp only; omega⟩
    obtain rfl : i = 4 * (j + 1) + (c.val + 1) := by omega
    have hearlier : 4 * (j + 1) + (c.val + 1) - 4 = 4 * j + (c.val + 1) := by omega
    rw [if_neg h0, hearlier]
    exact expandedWord_within_round key j c

/-! ### The statements -/

/-- Settles O45: the first four words and the layout by `roundKeyAt_getElem`, the other words by `expandedWord_recurrence`, which
`startWord_getElem` reads byte by byte. -/
theorem expandFollowsTheRecurrence : Obligations.ExpandFollowsTheRecurrence := by
  refine fun key => ⟨fun i b => ?first, fun i h4 _ b => ?later, fun j k b => ?layout⟩
  case first =>
    have hbyte := roundKeyAt_getElem key 0 i b
    rw [Nat.mul_zero, Nat.zero_add] at hbyte
    exact hbyte.symm
  case later =>
    rw [expandedWord_recurrence key h4, xorWord_getElem, ← startWord_getElem]
    split <;> rfl
  case layout =>
    have hround : (expand key)[j] = roundKeyAt key j.val := expand_getElem key j.val j.isLt
    rw [hround, roundKeyAt_getElem]

theorem expand_zero (key : Block) : (expand key)[0] = key :=
  expand_getElem key 0 (by decide)

/-- Settles O46: round key 0 is the key, so the key can be read back from the expansion. -/
theorem expandDeterminesTheKey : Obligations.ExpandDeterminesTheKey := by
  refine ⟨expand_zero, fun k1 k2 h => ?_⟩
  rw [← expand_zero k1, h, expand_zero]

/-- Half way to the last round key of R176's example: evaluating all ten rounds at once recurses too deep. -/
theorem roundKeyAt_five_of_example :
    roundKeyAt (hexBlock 0x000102030405060708090A0B0C0D0E0F) 5 = hexBlock 0x3CAAA3E8A99F9DEB50F3AF57ADF622AA := by
  with_unfolding_all decide

theorem roundKeyAt_ten_of_example :
    roundKeyAt (hexBlock 0x000102030405060708090A0B0C0D0E0F) 10 = hexBlock 0x13111D7FE3944A17F307A78B4D2B30C5 := by
  have hrounds (key : Block) : roundKeyAt key 10 = nextRoundKey (rcon 10) (nextRoundKey (rcon 9) (nextRoundKey (rcon 8)
      (nextRoundKey (rcon 7) (nextRoundKey (rcon 6) (roundKeyAt key 5))))) := rfl
  rw [hrounds, roundKeyAt_five_of_example]
  with_unfolding_all decide

/-- Settles O24: the rules by `commandRule_of_perform`, the known answers by evaluation. `with_unfolding_all` lets `decide` see
through the library's recursions on arrays. -/
theorem keyCommandRules : Obligations.KeyCommandRules := by
  refine ⟨?keyexp, by with_unfolding_all decide, by with_unfolding_all decide, ?last, by decide, ?keyclr⟩
  case keyexp => exact commandRule_of_perform (decode_encode .keyexp) (fun _ => rfl) (fun _ _ => rfl)
  case last => rw [expand_getElem, roundKeyAt_ten_of_example]
  case keyclr => exact commandRule_of_perform (decode_encode .keyclr) (fun _ => rfl) (fun _ _ => rfl)

end Sys2Proof.Machine
end

section
/-! Proofs for 44_round_transforms.md: the row shifts (R192, R193), the column mixes (R194 to R197) as matrix products over the
field, the inverse laws, the lane structure (R199), and the commands on STATE (R200 to R206).

A cell of `mixColumns` is a row of the matrix times a column of the block. So the inverse law is that of the matrices, and what an
output byte depends on is told by the coefficients of its row. -/

namespace Sys2Proof.Machine

/-! ### Reading one byte of the lane-wise transforms (R190, R191, R198) -/

theorem subBytes_getElem (s : Block) (k : Fin 16) : (subBytes s)[k] = subByte s[k] :=
  Vector.getElem_map subByte k.isLt

theorem invSubBytes_getElem (s : Block) (k : Fin 16) : (invSubBytes s)[k] = invSubByte s[k] :=
  Vector.getElem_map invSubByte k.isLt

theorem addRoundKey_getElem (s k : Block) (i : Fin 16) : (addRoundKey s k)[i] = s[i] ^^^ k[i] :=
  Vector.getElem_zipWith i.isLt

/-! ### The row shifts as permutations of the bytes (R192, R193) -/

theorem shiftRows_getElem (s : Block) (k : Fin 16) : (shiftRows s)[k] = cell s (rowOf k) (colOf k + rowOf k) :=
  blockOf_getElem _ k.val k.isLt

theorem invShiftRows_getElem (s : Block) (k : Fin 16) : (invShiftRows s)[k] = cell s (rowOf k) (colOf k - rowOf k) :=
  blockOf_getElem _ k.val k.isLt

/-- The byte at a row and a column, by its index. -/
theorem cell_eq_getElem (s : Block) {r c : Fin 4} {k : Fin 16} (h : k.val = r.val + 4 * c.val) : cell s r c = s[k] := by
  simp [cell, h]

/-- Settles O47: the formulas are the cells of the two shifts; the source indices of P and Q agree with them at each k. -/
theorem shiftRowsMovesRowsByTheirNumber : Obligations.ShiftRowsMovesRowsByTheirNumber := by
  refine fun s => ⟨fun r c => cell_shiftRows s r c, fun r c => ?unshift, fun k => ?permP, fun k => ?permQ⟩
  case unshift =>
    have hback := cell_invShiftRows s r (c + r)
    rwa [add_sub_cancel_right] at hback
  case permP =>
    rw [shiftRows_getElem]
    exact cell_eq_getElem s (by revert k; decide)
  case permQ =>
    rw [invShiftRows_getElem]
    exact cell_eq_getElem s (by revert k; decide)

/-! ### The row shifts cell by cell (R193, R201, R205) -/

theorem invShiftRows_shiftRows (s : Block) : invShiftRows (shiftRows s) = s :=
  block_ext_cell fun r c => by rw [cell_invShiftRows, cell_shiftRows, sub_add_cancel]

theorem shiftRows_invShiftRows (s : Block) : shiftRows (invShiftRows s) = s :=
  block_ext_cell fun r c => by rw [cell_shiftRows, cell_invShiftRows, add_sub_cancel_right]

/-- Rotating a row by its number four times is no rotation, so three times is once back. -/
theorem shiftRows_three (s : Block) : shiftRows (shiftRows (shiftRows s)) = invShiftRows s := by
  refine block_ext_cell fun r c => ?_
  have hcolumn : c + r + r + r = c - r := by revert r c; decide
  rw [cell_shiftRows, cell_shiftRows, cell_shiftRows, cell_invShiftRows, hcolumn]

theorem shiftRows_of_constant_rows {s : Block} (h : ∀ r c : Fin 4, cell s r c = cell s r 0) : shiftRows s = s :=
  block_ext_cell fun r c => by rw [cell_shiftRows, h r (c + r), h r c]

/-! ### The dot product of four pairs (41_field_arithmetic.md R132) -/

theorem dot_four (a b : Quad) :
    dot a b 4 = multiply a[0] b[0] ^^^ multiply a[1] b[1] ^^^ multiply a[2] b[2] ^^^ multiply a[3] b[3] := by
  have hfirst : dot a b 1 = multiply a[0] b[0] := (dot_succ a b 0).trans BitVec.zero_xor
  rw [← hfirst]
  rfl

/-- The sum may begin at any of the four pairs. -/
theorem dot_four_from (a b : Quad) (r : Fin 4) : dot a b 4 = multiply a[r] b[r] ^^^ multiply a[r + 1] b[r + 1] ^^^
    multiply a[r + 2] b[r + 2] ^^^ multiply a[r + 3] b[r + 3] := by
  rw [dot_four]
  match r with
  | 0 => rfl
  | 1 | 2 | 3 => simp only [Fin.isValue, Fin.reduceAdd]; ac_rfl

theorem dot_comm (a b : Quad) : dot a b 4 = dot b a 4 := by
  rw [dot_four, dot_four, multiply_comm a[0], multiply_comm a[1], multiply_comm a[2], multiply_comm a[3]]

theorem dot_xorWord (a v w : Quad) : dot a (xorWord v w) 4 = dot a v 4 ^^^ dot a w 4 := by
  simp only [dot_four, xorWord, Vector.getElem_zipWith, multiply_xor]
  ac_rfl

/-- A vector with one nonzero byte picks one product. -/
theorem dot_eq_multiply_of_single {a b : Quad} {i : Fin 4} (h : ∀ j : Fin 4, j ≠ i → b[j] = 0x00) :
    dot a b 4 = multiply a[i] b[i] := by
  have hne : ∀ i : Fin 4, i + 1 ≠ i ∧ i + 2 ≠ i ∧ i + 3 ≠ i := by decide
  obtain ⟨h1, h2, h3⟩ := hne i
  rw [dot_four_from a b i, h _ h1, h _ h2, h _ h3, multiply_zero, multiply_zero, multiply_zero]
  simp

/-- A vector of four equal bytes is multiplied by the sum of the coefficients. -/
theorem dot_of_constant {a b : Quad} {x : Byte} (h : ∀ i : Fin 4, b[i] = x) :
    dot a b 4 = multiply (a[0] ^^^ a[1] ^^^ a[2] ^^^ a[3]) x := by
  have h0 : b[0] = x := h 0
  have h1 : b[1] = x := h 1
  have h2 : b[2] = x := h 2
  have h3 : b[3] = x := h 3
  rw [dot_four, h0, h1, h2, h3, xor_multiply, xor_multiply, xor_multiply]

/-- Changing the byte a nonzero coefficient stands at changes the sum. -/
theorem dot_ne_of_single_change {a v w : Quad} {i : Fin 4} (ha : a[i] ≠ 0x00) (hsame : ∀ j : Fin 4, j ≠ i → v[j] = w[j])
    (hchange : v[i] ≠ w[i]) : dot a v 4 ≠ dot a w 4 := by
  intro heq
  have hzero : ∀ j : Fin 4, j ≠ i → (xorWord v w)[j] = 0x00 := fun j hj => by
    rw [xorWord_getElem, hsame j hj]
    exact BitVec.xor_self
  have hproduct : multiply a[i] (v[i] ^^^ w[i]) = multiply a[i] 0x00 := by
    rw [← xorWord_getElem, ← dot_eq_multiply_of_single hzero, dot_xorWord, heq, multiply_zero]
    exact BitVec.xor_self
  exact hchange (BitVec.xor_eq_zero_iff.1 (multiply_left_injective ha hproduct))

/-! ### Matrices over the field (R194, R196) -/

/-- A matrix times a column of four bytes. -/
def matVec (m : Vector Quad 4) (v : Quad) : Quad := Vector.ofFn fun r => dot m[r] v 4

/-- A column of a matrix. -/
def matColumn (n : Vector Quad 4) (j : Fin 4) : Quad := #v[n[0][j], n[1][j], n[2][j], n[3][j]]

/-- A row times a matrix. -/
def vecMat (u : Quad) (n : Vector Quad 4) : Quad := Vector.ofFn fun j => dot u (matColumn n j) 4

theorem matVec_getElem (m : Vector Quad 4) (v : Quad) (r : Nat) (h : r < 4) : (matVec m v)[r] = dot m[r] v 4 :=
  Vector.getElem_ofFn h

theorem vecMat_getElem (u : Quad) (n : Vector Quad 4) (j : Nat) (h : j < 4) :
    (vecMat u n)[j] = dot u (matColumn n ⟨j, h⟩) 4 :=
  Vector.getElem_ofFn h

/-- The double sum of a row, a matrix and a column, summed in either order. -/
theorem dot_matVec (u : Quad) (n : Vector Quad 4) (v : Quad) : dot u (matVec n v) 4 = dot (vecMat u n) v 4 := by
  simp only [dot_four, matVec_getElem, vecMat_getElem, matColumn, multiply_xor, xor_multiply, multiply_assoc]
  ac_rfl

/-- A matrix undoes another when each of its rows gives a row of the identity matrix. -/
theorem matVec_matVec_of_mul_eq_one {m n : Vector Quad 4}
    (h : ∀ r j : Fin 4, dot m[r] (matColumn n j) 4 = if j = r then 0x01 else 0x00) (v : Quad) :
    matVec m (matVec n v) = v := by
  ext r hr : 1
  have hrow (j : Fin 4) : (vecMat m[r] n)[j] = if j = ⟨r, hr⟩ then 0x01 else 0x00 :=
    (vecMat_getElem _ n j.val j.isLt).trans (h ⟨r, hr⟩ j)
  calc (matVec m (matVec n v))[r]
    _ = dot v (vecMat m[r] n) 4 := by rw [matVec_getElem, dot_matVec, dot_comm]
    _ = multiply v[r] 0x01 := by
      rw [dot_eq_multiply_of_single fun j hj => (hrow j).trans (if_neg hj), hrow ⟨r, hr⟩, if_pos rfl]
      rfl
    _ = v[r] := multiply_one _

/-- R196: `MI × MF = I`. -/
theorem invMixMatrix_mul_mixMatrix (r j : Fin 4) :
    dot invMixMatrix[r] (matColumn mixMatrix j) 4 = if j = r then 0x01 else 0x00 := by
  revert r j
  decide

theorem mixMatrix_mul_invMixMatrix (r j : Fin 4) :
    dot mixMatrix[r] (matColumn invMixMatrix j) 4 = if j = r then 0x01 else 0x00 := by
  revert r j
  decide

/-! ### The column mixes column by column (R195, R197) -/

theorem column_mixColumns (s : Block) (c : Fin 4) : column (mixColumns s) c = matVec mixMatrix (column s c) := by
  ext r hr : 1
  rw [column_getElem, cell_mixColumns, matVec_getElem]
  rfl

theorem column_invMixColumns (s : Block) (c : Fin 4) : column (invMixColumns s) c = matVec invMixMatrix (column s c) := by
  ext r hr : 1
  rw [column_getElem, cell_invMixColumns, matVec_getElem]
  rfl

theorem column_mixColumns_congr {s t : Block} {c : Fin 4} (h : column s c = column t c) :
    column (mixColumns s) c = column (mixColumns t) c := by
  rw [column_mixColumns, column_mixColumns, h]

/-- A block is its four columns. -/
theorem block_ext_column {s t : Block} (h : ∀ c, column s c = column t c) : s = t :=
  block_ext_cell fun r c => by
    rw [← column_getElem s c r.val r.isLt, h c, column_getElem]

theorem invMixColumns_mixColumns (s : Block) : invMixColumns (mixColumns s) = s :=
  block_ext_column fun c => by
    rw [column_invMixColumns, column_mixColumns, matVec_matVec_of_mul_eq_one invMixMatrix_mul_mixMatrix]

theorem mixColumns_invMixColumns (s : Block) : mixColumns (invMixColumns s) = s :=
  block_ext_column fun c => by
    rw [column_mixColumns, column_invMixColumns, matVec_matVec_of_mul_eq_one mixMatrix_mul_invMixMatrix]

/-! ### The inverse laws of the lane-wise transforms (R154, R198), and the laws together (R199) -/

theorem invSubBytes_subBytes (s : Block) : invSubBytes (subBytes s) = s :=
  block_ext_cell fun r c => by rw [cell_invSubBytes, cell_subBytes, invSubByte_subByte]

theorem subBytes_invSubBytes (s : Block) : subBytes (invSubBytes s) = s :=
  block_ext_cell fun r c => by rw [cell_subBytes, cell_invSubBytes, subByte_invSubByte]

theorem addRoundKey_addRoundKey (s k : Block) : addRoundKey (addRoundKey s k) k = s :=
  block_ext_cell fun r c => by
    rw [cell_addRoundKey, cell_addRoundKey, BitVec.xor_assoc, BitVec.xor_self, BitVec.xor_zero]

theorem addRoundKey_zero (s : Block) : addRoundKey s (Vector.replicate 16 0) = s := by
  ext k hk : 1
  simp [addRoundKey]

/-- Settles O49: the shifts and the lane-wise transforms cell by cell, the mixes by the products of their matrices. -/
theorem transformsInvert : Obligations.TransformsInvert := fun s k =>
  ⟨invShiftRows_shiftRows s, shiftRows_invShiftRows s, invSubBytes_subBytes s, subBytes_invSubBytes s,
    invMixColumns_mixColumns s, mixColumns_invMixColumns s, addRoundKey_addRoundKey s k⟩

/-- Settles O50: row r of a shift takes its columns by adding or subtracting r, which permutes them; a column of a mix is a function
of that column. -/
theorem laneStructure : Obligations.LaneStructure := by
  refine ⟨fun s => ⟨block_ext_cell fun r c => ?sub, block_ext_cell fun r c => ?invSub⟩,
    fun s t k l j h => ⟨?_, ?_, fun hkey => ?_⟩,
    fun r => ⟨Equiv.addRight r, Equiv.subRight r, fun s c => ⟨cell_shiftRows s r c, cell_invShiftRows s r c⟩⟩,
    fun s t c h => ⟨?_, ?_⟩⟩
  case sub => rw [cell_subBytes, cell_shiftRows, cell_shiftRows, cell_subBytes]
  case invSub => rw [cell_invSubBytes, cell_invShiftRows, cell_invShiftRows, cell_invSubBytes]
  · rw [subBytes_getElem, subBytes_getElem, h]
  · rw [invSubBytes_getElem, invSubBytes_getElem, h]
  · rw [addRoundKey_getElem, addRoundKey_getElem, h, hkey]
  · exact column_mixColumns_congr h
  · rw [column_invMixColumns, column_invMixColumns, h]

/-! ### The column mixes by their coefficients (R194 to R197) -/

theorem two_multiply (a : Byte) : multiply 0x02 a = double a := by
  rw [multiply_comm, multiply_two]

theorem three_multiply (a : Byte) : multiply 0x03 a = double a ^^^ a := by
  have hsum : (0x03 : Byte) = 0x02 ^^^ 0x01 := by decide
  rw [hsum, xor_multiply, two_multiply, one_multiply]

/-- MI is circulant: row r is the first row rotated by r. -/
theorem invMixMatrix_getElem (r : Fin 4) : invMixMatrix[r][r] = 0x0E ∧ invMixMatrix[r][r + 1] = 0x0B ∧
    invMixMatrix[r][r + 2] = 0x0D ∧ invMixMatrix[r][r + 3] = 0x09 := by
  revert r
  decide

theorem column_getElem_fin (s : Block) (c r : Fin 4) : (column s c)[r] = cell s r c :=
  column_getElem s c r.val r.isLt

/-- A row of coefficients times a column of a block. -/
theorem dot_column (a0 a1 a2 a3 : Byte) (s : Block) (c : Fin 4) : dot #v[a0, a1, a2, a3] (column s c) 4 =
    multiply a0 (cell s 0 c) ^^^ multiply a1 (cell s 1 c) ^^^ multiply a2 (cell s 2 c) ^^^ multiply a3 (cell s 3 c) := by
  rw [dot_four, column_getElem, column_getElem, column_getElem, column_getElem]
  rfl

/-- Settles O48: each cell is the dot product of its row of the matrix with the column; for MI the sum begins at the row's own
cell. -/
theorem mixColumnsCoefficients : Obligations.MixColumnsCoefficients := by
  refine fun s c => ⟨?row0, ?row1, ?row2, ?row3, fun r => ?inverse⟩
  case row0 =>
    simpa only [one_multiply, two_multiply, three_multiply] using
      (cell_mixColumns s 0 c).trans (dot_column 0x02 0x03 0x01 0x01 s c)
  case row1 =>
    simpa only [one_multiply, two_multiply, three_multiply] using
      (cell_mixColumns s 1 c).trans (dot_column 0x01 0x02 0x03 0x01 s c)
  case row2 =>
    simpa only [one_multiply, two_multiply, three_multiply] using
      (cell_mixColumns s 2 c).trans (dot_column 0x01 0x01 0x02 0x03 s c)
  case row3 =>
    simpa only [one_multiply, two_multiply, three_multiply] using
      (cell_mixColumns s 3 c).trans (dot_column 0x03 0x01 0x01 0x02 s c)
  case inverse =>
    obtain ⟨h0, h1, h2, h3⟩ := invMixMatrix_getElem r
    rw [cell_invMixColumns, dot_four_from _ _ r, h0, h1, h2, h3, column_getElem_fin, column_getElem_fin, column_getElem_fin,
      column_getElem_fin]

/-- The coefficients of a row of MF add up to 0x01 (R202). -/
theorem mixMatrix_row_sum (r : Fin 4) :
    mixMatrix[r][0] ^^^ mixMatrix[r][1] ^^^ mixMatrix[r][2] ^^^ mixMatrix[r][3] = 0x01 := by
  revert r
  decide

/-- The coefficients of a row of MI add up to 0x01 (R206). -/
theorem invMixMatrix_row_sum (r : Fin 4) :
    invMixMatrix[r][0] ^^^ invMixMatrix[r][1] ^^^ invMixMatrix[r][2] ^^^ invMixMatrix[r][3] = 0x01 := by
  revert r
  decide

theorem mixMatrix_ne_zero (r i : Fin 4) : mixMatrix[r][i] ≠ 0x00 := by
  revert r i
  decide

/-- A row whose coefficients add up to 0x01 leaves a column of four equal bytes as it is. -/
theorem dot_column_of_constant {a : Quad} (ha : a[0] ^^^ a[1] ^^^ a[2] ^^^ a[3] = 0x01) {s : Block} {c : Fin 4}
    (h : ∀ r : Fin 4, cell s r c = cell s 0 c) (r : Fin 4) : dot a (column s c) 4 = cell s r c := by
  have hcolumn (i : Fin 4) : (column s c)[i] = cell s r c := by rw [column_getElem_fin, h i, h r]
  rw [dot_of_constant hcolumn, ha, one_multiply]

theorem cell_mixColumns_of_constant {s : Block} {c : Fin 4} (h : ∀ r : Fin 4, cell s r c = cell s 0 c) (r : Fin 4) :
    cell (mixColumns s) r c = cell s r c :=
  (cell_mixColumns s r c).trans (dot_column_of_constant (mixMatrix_row_sum r) h r)

theorem cell_invMixColumns_of_constant {s : Block} {c : Fin 4} (h : ∀ r : Fin 4, cell s r c = cell s 0 c) (r : Fin 4) :
    cell (invMixColumns s) r c = cell s r c :=
  (cell_invMixColumns s r c).trans (dot_column_of_constant (invMixMatrix_row_sum r) h r)

/-- Every byte of a mixed column depends on each byte of the column (R202): no coefficient is 0x00. -/
theorem cell_mixColumns_ne_of_single_change {s t : Block} {c i : Fin 4} (hsame : ∀ r : Fin 4, r ≠ i → cell s r c = cell t r c)
    (hchange : cell s i c ≠ cell t i c) (r : Fin 4) : cell (mixColumns s) r c ≠ cell (mixColumns t) r c := by
  rw [cell_mixColumns, cell_mixColumns]
  refine dot_ne_of_single_change (mixMatrix_ne_zero r i) (fun j hj => ?_) ?_
  · rw [column_getElem_fin, column_getElem_fin, hsame j hj]
  · rwa [column_getElem_fin, column_getElem_fin]

/-! ### The commands on STATE (R200 to R206) -/

/-- The rule of a command that makes no check, from its effect. -/
theorem commandRule_of_no_checks {i : Instr} (h : checksOf i = []) : CommandRule i (encode i) (fun _ => none) (perform i) :=
  commandRule_of_perform (decode_encode i) (fun r => by rw [checkPreconditions, h]; rfl) fun _ _ => rfl

/-- Settles O28: the rules by `commandRule_of_no_checks`, the corner cases by the laws of the transforms, the examples by
evaluation. -/
theorem transformCommandRules : Obligations.TransformCommandRules := by
  refine ⟨commandRule_of_no_checks rfl, subBytes_getElem, ⟨?zeros, ?subExample, fun s k => ?noFixedByte⟩,
    commandRule_of_no_checks rfl, ⟨?shiftExample, fun s => ⟨shiftRows_of_constant_rows, ?fourShifts⟩⟩,
    commandRule_of_no_checks rfl, ⟨?mixExample, fun _ _ => cell_mixColumns_of_constant, fun s c hzero r => ?zeroColumn,
      fun _ _ _ => column_mixColumns_congr, fun _ _ _ _ => cell_mixColumns_ne_of_single_change⟩,
    commandRule_of_no_checks rfl, invSubBytes_getElem, ⟨?invZeros, ?invSubExample, invSubBytes_subBytes⟩,
    commandRule_of_no_checks rfl, ⟨?invShiftExample, fun s => ⟨invShiftRows_shiftRows s, shiftRows_three s⟩⟩,
    commandRule_of_no_checks rfl, ⟨?invMixExample, fun _ _ => cell_invMixColumns_of_constant, invMixColumns_mixColumns⟩⟩
  case noFixedByte =>
    rw [subBytes_getElem]
    exact (subByte_ne_self_and_ne_complement s[k]).1
  case fourShifts => rw [shiftRows_three, invShiftRows_shiftRows]
  case zeroColumn =>
    have hconstant (i : Fin 4) : cell s i c = cell s 0 c := (hzero i).trans (hzero 0).symm
    exact (cell_mixColumns_of_constant hconstant r).trans (hzero r)
  all_goals with_unfolding_all decide

theorem selectedRoundKey_of_le {r : Regs} (h : r.rksel.toNat ≤ 10) : selectedRoundKey r = roundKey r.rk r.rksel.toNat :=
  if_pos h

theorem roundKey_eq_getElem (rk : RoundKeys) (j : Fin 11) : roundKey rk j.val = rk[j] := by
  simp [roundKey, Vector.getD]

/-- Settles O29: the checks in the order of `checkPreconditions_addrk`; past them RKSEL selects one of the eleven round keys. -/
theorem addrkRule : Obligations.AddrkRule := by
  refine ⟨commandRule_of_perform (decode_encode .addrk) (fun r => ?checks) (fun r hpass => ?effect), roundKey_eq_getElem,
    fun key => ?first, addRoundKey_getElem, addRoundKey_addRoundKey, addRoundKey_zero, ?known⟩
  case checks =>
    rw [checkPreconditions_map_errorCode]
    simp
  case effect =>
    have hrksel : r.rksel.toNat ≤ 10 := by
      by_contra hover
      cases hkey : r.keyv <;> simp [hkey, Nat.lt_of_not_le hover] at hpass
    rw [← selectedRoundKey_of_le hrksel]
    rfl
  case first => exact (roundKey_eq_getElem (expand key) 0).trans (expand_zero key)
  case known => with_unfolding_all decide

end Sys2Proof.Machine
end

section
/-! Proofs for 45_cipher.md: the pipelines as loops over the rounds (R220, R221), that Decrypt undoes Encrypt stage by stage (R224,
R226), the known-answer vector, and the commands ENC and DEC (R222, R223).

Every transform of a round can be moved to the other side of an equation as its inverse. So whether a stage of Decrypt on c is what
Encrypt on b held at the same point does not depend on the stage: at the first it says that b encrypts to c, at the last that c
decrypts to b. -/

namespace Sys2Proof.Machine

/-! ### The stages one by one (R220, R221) -/

section
variable (s : Block) (rk : RoundKeys)

theorem encStage_zero : encStage s rk 0 = addRoundKey s (roundKey rk 0) := rfl

theorem encStage_succ {i : Nat} (h : i < 9) :
    encStage s rk (i + 1) = addRoundKey (mixColumns (encShifted (encStage s rk i))) (roundKey rk (i + 1)) :=
  congrArg (addRoundKey · _) (if_pos (Nat.succ_lt_succ h))

theorem encrypt_eq : encrypt s rk = addRoundKey (encShifted (encStage s rk 9)) (roundKey rk 10) := rfl

theorem decStage_zero : decStage s rk 0 = addRoundKey s (roundKey rk 10) := rfl

theorem decStage_succ {n : Nat} (h : n < 9) : decStage s rk (n + 1) =
    invMixColumns (addRoundKey (invSubBytes (invShiftRows (decStage s rk n))) (roundKey rk (9 - n))) := by
  rw [← Nat.add_sub_add_right 9 1 n]
  exact if_pos (Nat.succ_lt_succ h)

theorem decrypt_eq : decrypt s rk =
    addRoundKey (invSubBytes (invShiftRows (decStage s rk 9))) (roundKey rk 0) := rfl

end

theorem roundKey_of_lt (rk : RoundKeys) {j : Nat} (h : j < 11) : roundKey rk j = rk[j] :=
  roundKey_eq_getElem rk ⟨j, h⟩

/-- A fold passes through the stages of a pipeline when each of its steps leads from one stage to the next. -/
theorem foldl_eq_stage {α β : Type} {f : β → α → β} {rounds : List α} (stage : Nat → β)
    (hstep : ∀ j (hj : j < rounds.length), f (stage j) rounds[j] = stage (j + 1)) :
    rounds.foldl f (stage 0) = stage rounds.length := by
  induction rounds generalizing stage with
  | nil => rfl
  | cons round rounds ih =>
    have hfirst : f (stage 0) round = stage 1 := hstep 0 (Nat.succ_pos _)
    rw [List.foldl_cons, hfirst]
    exact ih (fun j => stage (j + 1)) fun j hj => hstep (j + 1) (Nat.succ_lt_succ hj)

/-- Settles O51: each pipeline is its first stage, a fold through nine middle stages, and its last stage. -/
theorem pipelinesFollowTheRounds : Obligations.PipelinesFollowTheRounds := by
  refine fun s rk => ⟨?encrypt, ?decrypt⟩
  case encrypt =>
    have hround : ∀ j : Fin 9, ([1, 2, 3, 4, 5, 6, 7, 8, 9] : List (Fin 11))[j.val].val = j.val + 1 := by decide
    rw [← roundKey_of_lt rk, ← roundKey_of_lt rk, ← encStage_zero, foldl_eq_stage (encStage s rk) ?step]
    case step =>
      intro j hj
      rw [encStage_succ s rk hj, ← hround ⟨j, hj⟩, roundKey_eq_getElem]
      rfl
    rfl
  case decrypt =>
    have hround : ∀ j : Fin 9, ([9, 8, 7, 6, 5, 4, 3, 2, 1] : List (Fin 11))[j.val].val = 9 - j.val := by decide
    rw [← roundKey_of_lt rk, ← roundKey_of_lt rk, ← decStage_zero, foldl_eq_stage (decStage s rk) ?step]
    case step =>
      intro j hj
      rw [decStage_succ s rk hj, ← hround ⟨j, hj⟩, roundKey_eq_getElem]
    rfl

/-! ### Moving a transform to the other side of an equation -/

theorem invMixColumns_eq_iff {s t : Block} : invMixColumns s = t ↔ s = mixColumns t :=
  (Equiv.mk mixColumns invMixColumns invMixColumns_mixColumns mixColumns_invMixColumns).symm_apply_eq

theorem addRoundKey_eq_iff {s t k : Block} : addRoundKey s k = t ↔ s = addRoundKey t k :=
  Function.Involutive.eq_iff (f := (addRoundKey · k)) (addRoundKey_addRoundKey · k)

theorem invSubBytes_invShiftRows_eq_iff {s t : Block} : invSubBytes (invShiftRows s) = t ↔ s = encShifted t :=
  ((Equiv.mk subBytes invSubBytes invSubBytes_subBytes subBytes_invSubBytes).trans
    (Equiv.mk shiftRows invShiftRows invShiftRows_shiftRows shiftRows_invShiftRows)).symm_apply_eq

/-! ### Decrypt undoes Encrypt (R224, R226) -/

/-- Each stage of Decrypt on c mirrors the stage of Encrypt on b before the same round key, exactly when b encrypts to c. -/
theorem decStage_eq_encShifted_iff {b c : Block} {rk : RoundKeys} {n i : Nat} (h : n + i = 9) :
    decStage c rk n = encShifted (encStage b rk i) ↔ encrypt b rk = c := by
  induction n generalizing i with
  | zero =>
    obtain rfl : i = 9 := by omega
    rw [decStage_zero, encrypt_eq, addRoundKey_eq_iff, eq_comm]
  | succ n ih =>
    have hround : 9 - n = i + 1 := by omega
    rw [decStage_succ c rk (by omega), hround, invMixColumns_eq_iff, addRoundKey_eq_iff, invSubBytes_invShiftRows_eq_iff,
      ← encStage_succ b rk (by omega), ih (by omega)]

theorem encrypt_eq_iff {b c : Block} {rk : RoundKeys} : encrypt b rk = c ↔ b = decrypt c rk := by
  rw [eq_comm (a := b), decrypt_eq, addRoundKey_eq_iff, invSubBytes_invShiftRows_eq_iff, ← encStage_zero,
    decStage_eq_encShifted_iff rfl]

theorem decrypt_encrypt (b : Block) (rk : RoundKeys) : decrypt (encrypt b rk) rk = b :=
  (encrypt_eq_iff.1 rfl).symm

theorem encrypt_decrypt (c : Block) (rk : RoundKeys) : encrypt (decrypt c rk) rk = c :=
  encrypt_eq_iff.2 rfl

/-- Settles O52: both directions of `encrypt_eq_iff`. -/
theorem cipherRoundTrip : Obligations.CipherRoundTrip := fun b rk =>
  ⟨decrypt_encrypt b rk, encrypt_decrypt b rk⟩

/-- Settles O53: `decStage_eq_encShifted_iff` for a block and its own ciphertext; stage 0 of Decrypt is its result. -/
theorem decryptStagesMirrorEncrypt : Obligations.DecryptStagesMirrorEncrypt := by
  refine fun b rk => ⟨fun i hfirst hlast => ?_, decrypt_encrypt b rk⟩
  have hrounds : 10 - i + (i - 1) = 9 := by omega
  exact (decStage_eq_encShifted_iff hrounds).2 rfl

/-! ### The known-answer vector, round by round (95_test_vectors.md sections 2.3 and 2.5)

Each round is checked byte by byte against the values the specification lists for it: evaluating Encrypt as a whole would evaluate
the earlier rounds again for every byte that depends on them. -/

/-- The round keys of the all-zero key, in hexadecimal digits (95_test_vectors.md section 2.3, column K0). -/
def zeroKeyRoundKeys : Vector Nat 11 := #v[0x00000000000000000000000000000000,
  0x62636363626363636263636362636363, 0x9B9898C9F9FBFBAA9B9898C9F9FBFBAA, 0x90973450696CCFFAF2F457330B0FAC99,
  0xEE06DA7B876A1581759E42B27E91EE2B, 0x7F2E2B88F8443E098DDA7CBBF34B9290, 0xEC614B851425758C99FF09376AB49BA7,
  0x217517873550620BACAF6B3CC61BF09B, 0x0EF903333BA9613897060A04511DFA9F, 0xB1D4D8E28A7DB9DA1D7BB3DE4C664941,
  0xB4EF5BCB3E92E21123E951CF6F8F188E]

/-- What Encrypt of the all-zero block under these round keys holds after the ShiftRows of rounds 1 to 10
(95_test_vectors.md section 2.5). -/
def zeroBlockShifted : Vector Nat 10 := #v[0x63636363636363636363636363636363,
  0x7C6363637C6363637C6363637C636363, 0xB417699B4969173DB417699B4969173D, 0x340D605A022FD91CD6600D3F30D8445C,
  0x62BE79CF9AE002BB53B8BD3B9DB5D5BA, 0x486CEA26FC6B1D50F3B684C3B6A89027, 0xF2BC7CCAC5150E8898A6746E3B893490,
  0xA93F7653A44F0CA650D9698422ACD80C, 0x26FDB42A7DBA1FEBAC7B64B93194FB5B, 0xD206101FD118CE2AABA5AB96A5BB33A0]

theorem cell_hexBlock (digits : Nat) (r c : Fin 4) :
    cell (hexBlock digits) r c = BitVec.ofNat 8 (digits >>> (8 * (15 - (r.val + 4 * c.val)))) :=
  Vector.getElem_ofFn _

theorem replicate_zero_eq_hexBlock : Vector.replicate 16 0 = hexBlock 0 :=
  block_ext_cell fun r c => by
    rw [cell_hexBlock, Nat.zero_shiftRight]
    exact Vector.getElem_replicate _

theorem addRoundKey_hexBlock_zero (s : Block) : addRoundKey s (hexBlock 0) = s := by
  rw [← replicate_zero_eq_hexBlock, addRoundKey_zero]

theorem xorWord_eq_column {t : Quad} {s s' : Block} {c c' : Fin 4} (h : ∀ r : Fin 4, t[r] ^^^ cell s r c = cell s' r c') :
    xorWord t (column s c) = column s' c' := by
  ext r hr : 1
  rw [column_getElem, ← h ⟨r, hr⟩, ← column_getElem_fin]
  exact xorWord_getElem t (column s c) ⟨r, hr⟩

/-- A round key is known from its first column and from each column by the one before it (R174). -/
theorem nextRoundKey_eq_of_cells {rc : Byte} {k k' : Block}
    (hfirst : ∀ r : Fin 4, (startWord rc (column k 3))[r] ^^^ cell k r 0 = cell k' r 0)
    (hlater : ∀ (c : Fin 3) (r : Fin 4), cell k' r c.castSucc ^^^ cell k r c.succ = cell k' r c.succ) :
    nextRoundKey rc k = k' := by
  refine block_ext_column fun c => ?_
  induction c using Fin.induction with
  | zero =>
    rw [column_nextRoundKey_zero]
    exact xorWord_eq_column hfirst
  | succ c ih =>
    rw [column_nextRoundKey_succ, ih]
    exact xorWord_eq_column fun r => by rw [column_getElem_fin, hlater c r]

/-- MF is circulant: row r is the first row rotated by r. -/
theorem mixMatrix_getElem (r : Fin 4) :
    mixMatrix[r][r] = 0x02 ∧ mixMatrix[r][r + 1] = 0x03 ∧ mixMatrix[r][r + 2] = 0x01 ∧ mixMatrix[r][r + 3] = 0x01 := by
  revert r
  decide

/-- A cell of MixColumns, the sum beginning at the row's own cell. -/
theorem cell_mixColumns_eq_doubles (s : Block) (r c : Fin 4) : cell (mixColumns s) r c =
    double (cell s r c) ^^^ (double (cell s (r + 1) c) ^^^ cell s (r + 1) c) ^^^ cell s (r + 2) c ^^^ cell s (r + 3) c := by
  obtain ⟨h0, h1, h2, h3⟩ := mixMatrix_getElem r
  rw [cell_mixColumns, dot_four_from _ _ r, h0, h1, h2, h3, column_getElem_fin, column_getElem_fin, column_getElem_fin,
    column_getElem_fin, two_multiply, three_multiply, one_multiply, one_multiply]

theorem cell_encShifted (s : Block) (r c : Fin 4) : cell (encShifted s) r c = subByte (cell s r (c + r)) :=
  (cell_shiftRows (subBytes s) r c).trans (cell_subBytes s r (c + r))

theorem roundKeyAt_succ (key : Block) (j : Nat) : roundKeyAt key (j + 1) = nextRoundKey (rcon (j + 1)) (roundKeyAt key j) := rfl

theorem nextRoundKey_zeroKeyRoundKeys (j : Fin 10) :
    nextRoundKey (rcon (j.val + 1)) (hexBlock zeroKeyRoundKeys[j.val]) = hexBlock zeroKeyRoundKeys[j.val + 1] := by
  refine nextRoundKey_eq_of_cells (fun r => ?_) fun c r => ?_
  · rw [startWord_getElem, column_getElem, column_getElem, column_getElem, column_getElem]
    repeat rw [cell_hexBlock]
    revert j r
    decide
  · repeat rw [cell_hexBlock]
    revert j c r
    decide

theorem encShifted_round_zeroBlockShifted (i : Fin 9) :
    encShifted (addRoundKey (mixColumns (hexBlock zeroBlockShifted[i.val])) (hexBlock zeroKeyRoundKeys[i.val + 1])) =
      hexBlock zeroBlockShifted[i.val + 1] := by
  refine block_ext_cell fun r c => ?_
  rw [cell_encShifted, cell_addRoundKey, cell_mixColumns_eq_doubles]
  repeat rw [cell_hexBlock]
  revert i r c
  decide

theorem encShifted_zero : encShifted (hexBlock 0) = hexBlock zeroBlockShifted[0] := by
  refine block_ext_cell fun r c => ?_
  rw [cell_encShifted, cell_hexBlock, cell_hexBlock]
  revert r c
  decide

theorem addRoundKey_zeroBlockShifted_nine : addRoundKey (hexBlock zeroBlockShifted[9]) (hexBlock zeroKeyRoundKeys[10]) =
    hexBlock 0x66E94BD4EF8A2C3B884CFA59CA342B2E := by
  refine block_ext_cell fun r c => ?_
  rw [cell_addRoundKey, cell_hexBlock, cell_hexBlock, cell_hexBlock]
  revert r c
  decide

theorem roundKey_expand_zero {j : Nat} (h : j < 11) : roundKey (expand (hexBlock 0)) j = hexBlock zeroKeyRoundKeys[j] := by
  rw [roundKey_of_lt _ h, expand_getElem]
  induction j with
  | zero => rfl
  | succ j ih => rw [roundKeyAt_succ, ih (by omega), nextRoundKey_zeroKeyRoundKeys ⟨j, by omega⟩]

theorem encShifted_encStage_zero {i : Nat} (h : i < 10) :
    encShifted (encStage (hexBlock 0) (expand (hexBlock 0)) i) = hexBlock zeroBlockShifted[i] := by
  induction i with
  | zero =>
    rw [encStage_zero, roundKey_expand_zero (by decide)]
    exact (congrArg encShifted (addRoundKey_hexBlock_zero _)).trans encShifted_zero
  | succ i ih =>
    rw [encStage_succ _ _ (by omega), ih (by omega), roundKey_expand_zero (by omega),
      encShifted_round_zeroBlockShifted ⟨i, by omega⟩]

/-- The source's known-answer vector. -/
theorem encrypt_zero : encrypt (Vector.replicate 16 0) (expand (Vector.replicate 16 0)) =
    hexBlock 0x66E94BD4EF8A2C3B884CFA59CA342B2E := by
  rw [replicate_zero_eq_hexBlock, encrypt_eq, encShifted_encStage_zero (by decide), roundKey_expand_zero (by decide),
    addRoundKey_zeroBlockShifted_nine]

/-! ### The commands (R222, R223) -/

theorem map_errorCode_noKey (keyv : Bool) :
    (if keyv then none else some ErrCode.noKey).map errorCode = if keyv then none else some 0x02 := by
  cases keyv <;> rfl

/-- Settles O25: the rules by `commandRule_of_perform`; DEC of the known answer is its unique preimage under Encrypt. -/
theorem cipherCommandRules : Obligations.CipherCommandRules := by
  refine ⟨commandRule_of_perform (decode_encode .enc) (fun r => ?encCheck) (fun _ _ => rfl), encrypt_zero,
    commandRule_of_perform (decode_encode .dec) (fun r => ?decCheck) (fun _ _ => rfl), (encrypt_eq_iff.1 encrypt_zero).symm,
    fun _ _ _ => encrypt_eq_iff⟩
  case encCheck => rw [checkPreconditions_enc, map_errorCode_noKey]
  case decCheck => rw [checkPreconditions_dec, map_errorCode_noKey]

/-! ### ENC then DEC in a session (R224 on the machine) -/

theorem run_add_of_next {m n : Nat} {s t : State} (h : core.run m s = .next t) : core.run (m + n) s = core.run n t := by
  induction m generalizing s with
  | zero =>
    cases h
    rw [Nat.zero_add]
  | succ m ih =>
    obtain ⟨u, hstep, -⟩ := step_cases s
    rw [Nat.succ_add, run_of_next (M := core) hstep]
    rw [run_of_next (M := core) hstep] at h
    exact ih h

/-- Where RUN of a command whose checks pass leaves the machine, without the values read. -/
theorem exists_run_runStmt {s : State} {i : Instr} {rest : List HostStmt} (hsched : s.sched = []) (hidle : s.regs.busy = false)
    (hprog : s.program = runStmt i ++ rest) (hcheck : checkPreconditions i s.regs = none) :
    ∃ t, core.run 3 s = .next t ∧ t.regs = complete (perform i (accept i s.regs)) ∧ t.program = rest ∧ t.sched = [] :=
  ⟨_, run_runStmt_accepted hsched hidle hprog hcheck, rfl, rfl, hsched⟩

theorem complete_perform_enc_accept (r : Regs) : complete (perform .enc (accept .enc r)) =
    { r with state := encrypt r.state r.rk, busy := false, done := true, pend := none } := by
  obtain ⟨⟩ := r
  rfl

theorem complete_perform_dec_accept (r : Regs) : complete (perform .dec (accept .dec r)) =
    { r with state := decrypt r.state r.rk, busy := false, done := true, pend := none } := by
  obtain ⟨⟩ := r
  rfl

/-- Settles O40: `exists_run_runStmt` for ENC and again for DEC, which passes its check because ENC leaves KEYV, and decrypts with the
round keys that ENC used. -/
theorem encThenDecRestoresTheState : Obligations.EncThenDecRestoresTheState := by
  intro s rest hsched hidle hkeyv hprog
  rw [List.append_assoc] at hprog
  obtain ⟨u, hrunEnc, hregsEnc, hprogDec, hschedDec⟩ :=
    exists_run_runStmt hsched hidle hprog (by rw [checkPreconditions_enc, if_pos hkeyv])
  rw [complete_perform_enc_accept] at hregsEnc
  have hidleDec : u.regs.busy = false := by rw [hregsEnc]
  have hkeyvDec : u.regs.keyv = true := by rw [hregsEnc, hkeyv]
  obtain ⟨t, hrunDec, hregsDec, hprogRest, -⟩ :=
    exists_run_runStmt hschedDec hidleDec hprogDec (by rw [checkPreconditions_dec, if_pos hkeyvDec])
  refine ⟨t, (run_add_of_next hrunEnc).trans hrunDec, ?_, hprogRest⟩
  rw [hregsDec, complete_perform_dec_accept, hregsEnc, decrypt_encrypt, ← hidle]

end Sys2Proof.Machine
end

section
/-! Proofs for 46_padding.md: `pad` and `checkPad` (R240, R241, R250), the byte stream of the host protocol (R247 to R249), and the
commands PAD, CHKPAD, ENCF and DECF (R242 to R246).

What `checkPad` answers is told by the tail of the block alone: a length n in 1..16 exactly when the last n bytes all equal n. -/

namespace Sys2Proof.Machine

/-! ### The padded block (R240) -/

theorem padBlock_getElem_of_lt (s : Block) {len : Nat} {k : Fin 16} (h : k.val < len) : (padBlock s len)[k] = s[k] :=
  (padBlock_getElem s len k.val k.isLt).trans (if_pos h)

theorem padBlock_getElem_toNat_of_le (s : Block) {len : Nat} {k : Fin 16} (h : len ≤ k.val) :
    (padBlock s len)[k].toNat = 16 - len := by
  have hbyte : (padBlock s len)[k] = BitVec.ofNat 8 (16 - len) :=
    (padBlock_getElem s len k.val k.isLt).trans (if_neg (Nat.not_lt.2 h))
  rw [hbyte, BitVec.toNat_ofNat]
  omega

/-- No byte of the old block is left: LEN = 0 gives a block of padding only. -/
theorem padBlock_zero (s : Block) : padBlock s 0 = Vector.replicate 16 0x10 := by
  ext k hk : 1
  rw [padBlock_getElem, if_neg (Nat.not_lt_zero k), Vector.getElem_replicate]
  rfl

theorem padBlock_fifteen (s : Block) : padBlock s 15 = s.set 15 0x01 := by
  ext k hk : 1
  rw [padBlock_getElem, Vector.getElem_set]
  by_cases hlast : k = 15
  · rw [if_neg (by omega), if_pos hlast.symm]
    rfl
  · rw [if_pos (by omega), if_neg (Ne.symm hlast)]

theorem padBlock_sixteen (s : Block) : padBlock s 16 = s := by
  ext k hk : 1
  rw [padBlock_getElem, if_pos hk]

/-! ### What `checkPad` finds (R241) -/

theorem checkPad_eq (s : Block) : checkPad s =
    if 1 ≤ s[15].toNat ∧ s[15].toNat ≤ 16 ∧ ∀ k : Fin 16, 16 - s[15].toNat ≤ k.val → s[k] = s[15] then s[15].toNat
    else 0 := by
  simp [checkPad, or_iff_not_imp_left]

/-- The last byte counts as one of the last n: s[15] = n need not be asked for beside it. -/
theorem checkPad_eq_iff {s : Block} {n : Nat} (h1 : 1 ≤ n) (h16 : n ≤ 16) :
    checkPad s = n ↔ ∀ k : Fin 16, 16 - n ≤ k.val → s[k].toNat = n := by
  rw [checkPad_eq]
  constructor
  · intro h k hk
    split at h
    next htail =>
      obtain ⟨-, -, htail⟩ := htail
      rw [← h] at hk ⊢
      rw [htail k hk]
    next => omega
  · intro htail
    have hlast : s[15].toNat = n := htail 15 (by omega)
    rw [hlast, if_pos ⟨h1, h16, fun k hk => BitVec.eq_of_toNat_eq ((htail k hk).trans hlast.symm)⟩]

theorem checkPad_eq_zero_of_last {s : Block} (h : s[15].toNat = 0 ∨ 16 < s[15].toNat) : checkPad s = 0 := by
  rw [checkPad_eq, if_neg (by omega)]

/-- One byte of the tail that differs from the last makes it no padding. -/
theorem checkPad_eq_zero_of_ne {s : Block} {k : Fin 16} (hk : 16 - s[15].toNat ≤ k.val) (h : s[k] ≠ s[15]) :
    checkPad s = 0 := by
  rw [checkPad_eq, if_neg]
  rintro ⟨-, -, htail⟩
  exact h (htail k hk)

/-- Settles O54: the two ranges of `padBlock`, and `checkPad_eq_iff` with the last byte named beside the tail. -/
theorem padAndCheckPadByTheirRules : Obligations.PadAndCheckPadByTheirRules := by
  refine ⟨fun s len k _ => ⟨padBlock_getElem_of_lt s, padBlock_getElem_toNat_of_le s⟩,
    fun s => ⟨checkPad_le s, fun n h1 h16 => ?_⟩⟩
  rw [checkPad_eq_iff h1 h16, iff_and_self]
  exact fun htail => htail 15 (by omega)

/-! ### Padding, then checking it (R250) -/

theorem checkPad_padBlock (s : Block) {len : Nat} (h : len ≤ 15) : checkPad (padBlock s len) = 16 - len :=
  (checkPad_eq_iff (by omega) (by omega)).2 fun _ hk => padBlock_getElem_toNat_of_le s (by omega)

/-- Settles O55: the padded tail is the one `checkPad` asks for. -/
theorem padThenCheckPad : Obligations.PadThenCheckPad :=
  ⟨fun s _ h => checkPad_padBlock s h, padBlock_sixteen⟩

/-! ### The byte stream (R247 to R249) -/

theorem chunk_getElem (bytes : List Byte) (k i : Nat) (h : i < 16) : (chunk bytes k)[i] = bytes.getD (16 * k + i) 0x00 :=
  Vector.getElem_ofFn _

/-- The first bytes of a chunk, as far as the stream reaches. -/
theorem take_chunk {bytes : List Byte} {k n : Nat} (hn : n ≤ 16) (hend : 16 * k + n ≤ bytes.length) :
    (chunk bytes k).toList.take n = (bytes.drop (16 * k)).take n := by
  apply List.ext_getElem
  · simp only [List.length_take, List.length_drop, Vector.length_toList]
    omega
  · intro i _ _
    rw [List.getElem_take, List.getElem_take, List.getElem_drop, Vector.getElem_toList, chunk_getElem, List.getD_eq_getElem]

/-- Padding keeps the bytes that are no padding. -/
theorem take_padBlock (s : Block) (len : Nat) : (padBlock s len).toList.take len = s.toList.take len := by
  apply List.ext_getElem
  · simp
  · intro i hi _
    have hin : i < len := hi.trans_le (List.length_take_le _ _)
    rw [List.getElem_take, List.getElem_take, Vector.getElem_toList, Vector.getElem_toList, padBlock_getElem, if_pos hin]

/-- The full chunks of a stream, one after the other, are its beginning. -/
theorem flatMap_chunk {bytes : List Byte} {q : Nat} (h : 16 * q ≤ bytes.length) :
    (List.range q).flatMap (fun k => (chunk bytes k).toList) = bytes.take (16 * q) := by
  induction q with
  | zero => rfl
  | succ q ih =>
    have hchunk : (chunk bytes q).toList = (bytes.drop (16 * q)).take 16 := by
      rw [← take_chunk le_rfl h, List.take_of_length_le (by simp)]
    rw [List.range_succ, List.flatMap_append, ih (by omega), List.flatMap_singleton, hchunk, ← List.take_add]
    rfl

theorem decryptStream_cons (rk : RoundKeys) (b : Block) {rest : List Block} (h : rest ≠ []) :
    decryptStream rk (b :: rest) = (decrypt b rk).toList ++ decryptStream rk rest :=
  match rest with
  | _ :: _ => rfl

/-- All blocks but the last are emitted whole. -/
theorem decryptStream_append_singleton (rk : RoundKeys) (blocks : List Block) (b : Block) :
    decryptStream rk (blocks ++ [b]) =
      blocks.flatMap (fun c => (decrypt c rk).toList) ++ (decrypt b rk).toList.take (16 - checkPad (decrypt b rk)) := by
  induction blocks with
  | nil => rfl
  | cons c blocks ih =>
    rw [List.cons_append, decryptStream_cons rk c (by simp), ih, List.flatMap_cons, List.append_assoc]

/-- Settles O56: decrypted, the full chunks are the first 16 · (L div 16) bytes, and the last block is cut to the other L mod 16. -/
theorem streamRoundTrip : Obligations.StreamRoundTrip := by
  refine fun rk bytes => ⟨by simp [encryptStream], ?_⟩
  have hrest : bytes.length % 16 ≤ 15 := by omega
  calc decryptStream rk (encryptStream rk bytes)
    _ = (List.range (bytes.length / 16)).flatMap (fun k => (chunk bytes k).toList) ++
        (chunk bytes (bytes.length / 16)).toList.take (bytes.length % 16) := by
      rw [encryptStream, decryptStream_append_singleton, decrypt_encrypt, checkPad_padBlock _ hrest,
        Nat.sub_sub_self (by omega), take_padBlock, List.flatMap_map]
      simp only [decrypt_encrypt]
    _ = bytes.take (16 * (bytes.length / 16)) ++ (bytes.drop (16 * (bytes.length / 16))).take (bytes.length % 16) := by
      rw [flatMap_chunk (Nat.mul_div_le _ _), take_chunk (by omega) (Nat.div_add_mod _ _).le]
    _ = bytes := by rw [← List.take_add, Nat.div_add_mod, List.take_length]

/-! ### The all-padding block under a key, round by round

Encrypt of the block that ends a block-aligned stream, under the key K3 of the examples. Its round keys stand in 95_test_vectors.md
section 2.3. Each round is evaluated on its own and cell by cell, from one line of the tables to the next; `as_aux_lemma` hands the
rounds to the kernel one at a time, since checking them all in one proof takes much memory. -/

/-- Round keys that follow one from the other are those of the first (R174). -/
theorem roundKey_expand_of_steps {keys : Vector Nat 11}
    (hstep : ∀ j : Fin 10, nextRoundKey (rcon (j.val + 1)) (hexBlock keys[j.val]) = hexBlock keys[j.val + 1])
    {j : Nat} (h : j < 11) : roundKey (expand (hexBlock keys[0])) j = hexBlock keys[j] := by
  rw [roundKey_of_lt _ h, expand_getElem]
  induction j with
  | zero => rfl
  | succ j ih => rw [roundKeyAt_succ, ih (by omega), hstep ⟨j, by omega⟩]

/-- Values that follow one from the other by a round of Encrypt are those it holds after each ShiftRows (R220). -/
theorem encShifted_encStage_of_steps {s : Block} {keys : Vector Nat 11} {shifted : Vector Nat 10}
    (hstep : ∀ j : Fin 10, nextRoundKey (rcon (j.val + 1)) (hexBlock keys[j.val]) = hexBlock keys[j.val + 1])
    (hfirst : encShifted (addRoundKey s (hexBlock keys[0])) = hexBlock shifted[0])
    (hround : ∀ i : Fin 9, encShifted (addRoundKey (mixColumns (hexBlock shifted[i.val])) (hexBlock keys[i.val + 1])) =
      hexBlock shifted[i.val + 1]) {i : Nat} (h : i < 10) :
    encShifted (encStage s (expand (hexBlock keys[0])) i) = hexBlock shifted[i] := by
  induction i with
  | zero => rw [encStage_zero, roundKey_expand_of_steps hstep (by decide), hfirst]
  | succ i ih =>
    rw [encStage_succ _ _ (by omega), ih (by omega), roundKey_expand_of_steps hstep (by omega), hround ⟨i, by omega⟩]

/-- The round keys of K3, in hexadecimal digits (95_test_vectors.md section 2.3, column K3). -/
def exampleRoundKeys : Vector Nat 11 := #v[0x00112233445566778899AABBCCDDEEFF,
  0xC0393478846C520F0CF5F8B4C028164B, 0xF67E87C27212D5CD7EE72D79BECF3B32, 0x789CA46C0A8E71A174695CD8CAA667EA,
  0x541923185E9752B92AFE0E61E058698B, 0x2EE01EF970774C405A894221BAD12BAA, 0x3011B20D4066FE4D1AEFBC6CA03E97C6,
  0xC29906ED82FFF8A0981044CC382ED30A, 0x73FF61EAF100994A6910DD86513E0E8C, 0xDA54053B2B549C71424441F7137A4F7B,
  0x36D024461D84B8375FC0F9C04CBAB6BB]

/-- What Encrypt of sixteen bytes 0x10 under these round keys holds after the ShiftRows of rounds 1 to 10. -/
def paddingBlockShifted : Vector Nat 10 := #v[0xCA6EF4DF20A7BB2646BD2385867C3862,
  0xF61E3EBE622380772D10D4750168B5A1, 0x0A57EBD53641B95FD52174F7CA5247B7, 0x62D52C8A1A2A6DD23F4E537A1A1F199C,
  0x00655BCD62B5F852791F3BA8511803DD, 0xF03FC81157F1AD5AA2450C76286744A6, 0xEDF33574820632668C37A64AEABD6818,
  0x298338742E3B10DF316B28A6393A375A, 0x0DA9F7F315A55D250751CC4E6368F678, 0x36B55AE75DE1E27327E7BEB011F89916]

theorem nextRoundKey_exampleRoundKeys (j : Fin 10) :
    nextRoundKey (rcon (j.val + 1)) (hexBlock exampleRoundKeys[j.val]) = hexBlock exampleRoundKeys[j.val + 1] := by
  refine nextRoundKey_eq_of_cells (fun r => ?_) fun c r => ?_
  · rw [startWord_getElem]
    simp only [column_getElem, cell_hexBlock]
    fin_cases j <;> revert r <;> as_aux_lemma => decide
  · simp only [cell_hexBlock]
    fin_cases j <;> revert c r <;> as_aux_lemma => decide

theorem encShifted_round_paddingBlockShifted (i : Fin 9) :
    encShifted (addRoundKey (mixColumns (hexBlock paddingBlockShifted[i.val])) (hexBlock exampleRoundKeys[i.val + 1])) =
      hexBlock paddingBlockShifted[i.val + 1] := by
  refine block_ext_cell fun r c => ?_
  rw [cell_encShifted, cell_addRoundKey, cell_mixColumns_eq_doubles]
  simp only [cell_hexBlock]
  fin_cases i <;> revert r c <;> as_aux_lemma => decide

theorem encShifted_replicate_addRoundKey :
    encShifted (addRoundKey (Vector.replicate 16 0x10) (hexBlock exampleRoundKeys[0])) = hexBlock paddingBlockShifted[0] := by
  refine block_ext_cell fun r c => ?_
  rw [cell_encShifted, cell_addRoundKey, cell_hexBlock, cell_hexBlock]
  revert r c
  decide

theorem addRoundKey_paddingBlockShifted_nine : addRoundKey (hexBlock paddingBlockShifted[9]) (hexBlock exampleRoundKeys[10]) =
    hexBlock 0x00657EA140655A44782747705D422FAD := by
  refine block_ext_cell fun r c => ?_
  rw [cell_addRoundKey, cell_hexBlock, cell_hexBlock, cell_hexBlock]
  revert r c
  decide

/-- The final block of a block-aligned stream under K3. -/
theorem encrypt_replicate_of_example : encrypt (Vector.replicate 16 0x10) (expand (hexBlock 0x00112233445566778899AABBCCDDEEFF)) =
    hexBlock 0x00657EA140655A44782747705D422FAD := by
  have hkey : exampleRoundKeys[0] = 0x00112233445566778899AABBCCDDEEFF := rfl
  rw [← hkey, encrypt_eq, encShifted_encStage_of_steps nextRoundKey_exampleRoundKeys encShifted_replicate_addRoundKey
      encShifted_round_paddingBlockShifted (by decide),
    roundKey_expand_of_steps nextRoundKey_exampleRoundKeys (by decide), addRoundKey_paddingBlockShifted_nine]

/-! ### The commands (R242 to R246) -/

/-- PADN, PADV and OUTLEN after a padding check, with its outcomes as propositions (R244). -/
theorem setPadResult_eq (b : Block) (r : Regs) : setPadResult b r = { r with
    padn := BitVec.ofNat 8 (checkPad b)
    padv := decide (checkPad b ≠ 0)
    outlen := if checkPad b ≠ 0 then BitVec.ofNat 8 (16 - checkPad b) else 16 } := by
  by_cases h : checkPad b = 0 <;> simp [setPadResult, h]

theorem checkPad_replicate : checkPad (Vector.replicate 16 0x10) = 16 := by decide

/-- Settles O26: the rules by `commandRule_of_perform`, the corner cases by the ranges of `padBlock` and the tail
`checkPad` asks for. -/
theorem padCommandRules : Obligations.PadCommandRules := by
  refine ⟨commandRule_of_perform (decode_encode .pad) (fun r => ?padCheck) (fun _ _ => rfl),
    fun s => ⟨padBlock_zero s, padBlock_fifteen s, padBlock_sixteen s⟩, fun s _ _ => padBlock_getElem_of_lt s, by decide,
    commandRule_of_perform (decode_encode .chkpad) (fun _ => rfl) (fun r _ => setPadResult_eq r.state r),
    fun s => ⟨fun hlast => ?last0, fun hlast => ?last17, fun hlast => ?last1, ?all16, fun htail hfirst => ?first,
      fun hlast hbefore => ?two, fun hlast hbefore => ?one⟩, by decide⟩
  case padCheck =>
    rw [checkPreconditions_pad, apply_ite (Option.map errorCode)]
    rfl
  case last0 => exact checkPad_eq_zero_of_last (.inl (congrArg BitVec.toNat hlast))
  case last17 => exact checkPad_eq_zero_of_last (.inr hlast)
  case last1 =>
    refine (checkPad_eq_iff le_rfl (by decide)).2 fun k hk => ?_
    obtain rfl : k = 15 := by omega
    exact congrArg BitVec.toNat hlast
  case all16 =>
    rintro rfl
    exact checkPad_replicate
  case first =>
    have hlast : s[15] = 0x10 := htail 15 (by decide)
    exact checkPad_eq_zero_of_ne (k := 0) (by rw [hlast]; decide) (hlast ▸ hfirst)
  case two =>
    refine (checkPad_eq_iff (by decide) (by decide)).2 fun k hk => ?_
    obtain rfl | rfl : k = 14 ∨ k = 15 := by omega
    · exact congrArg BitVec.toNat hbefore
    · exact congrArg BitVec.toNat hlast
  case one =>
    refine checkPad_eq_zero_of_ne (k := 14) (by rw [hlast]; decide) fun heq => ?_
    rw [hlast] at heq
    exact absurd (hbefore.symm.trans heq) (by decide)

theorem map_errorCode_noKey_or_badLen (keyv : Bool) (long : Prop) [Decidable long] :
    (if keyv then if long then some ErrCode.badLen else none else some .noKey).map errorCode =
      if keyv = false then some 0x02 else if long then some 0x03 else none := by
  cases keyv
  · rfl
  · exact apply_ite (Option.map errorCode) long _ _

/-- Settles O27: the rules by `commandRule_of_perform`; LEN = 0 leaves nothing of the old block, and the DECF example is
its unique preimage under Encrypt. -/
theorem finalBlockCommandRules : Obligations.FinalBlockCommandRules := by
  refine ⟨commandRule_of_perform (decode_encode .encf) (fun r => ?encfCheck) (fun _ _ => rfl), fun s => ?known,
    fun s => ⟨padBlock_zero s, padBlock_fifteen s⟩,
    commandRule_of_perform (decode_encode .decf) (fun r => ?decfCheck) (fun r _ => setPadResult_eq (decrypt r.state r.rk) _),
    (encrypt_eq_iff.1 encrypt_replicate_of_example).symm, checkPad_replicate⟩
  case encfCheck => rw [checkPreconditions_encf, map_errorCode_noKey_or_badLen]
  case decfCheck => rw [checkPreconditions_decf, map_errorCode_noKey]
  case known => rw [padBlock_zero, encrypt_replicate_of_example]

end Sys2Proof.Machine
end

section
/-! Proofs for 60_exceptions.md: which error a transaction raises (R274) and what it leaves as it was (R276). -/

namespace Sys2Proof.Machine

/-! ### The order of the errors (R274) -/

/-- The CMD write of a command whose checks pass while BUSY = 0 accepts it (40_command_lifecycle.md R110, R113). -/
theorem busWrite_cmd_accepted {op : Byte} {i : Instr} {s : State} (hidle : s.regs.busy = false) (hop : decode op = .ok i)
    (hcheck : checkPreconditions i s.regs = none) : busWrite 0x20 op s = .next (s.setRegs (accept i s.regs)) := by
  rw [busWrite_cmd_decoded hidle hop, exec_of_idle hidle, issue, hcheck]

/-- A keyed command without a valid key schedule is turned away with NO_KEY, whatever its other operands. -/
theorem busWrite_cmd_noKey {op : Byte} {i : Instr} {s : State} (hidle : s.regs.busy = false) (hkeyv : s.regs.keyv = false)
    (hop : decode op = .ok i) (hi : i ∈ [Instr.enc, .dec, .encf, .decf, .addrk]) :
    busWrite 0x20 op s = .next (s.setRegs (reject .noKey s.regs)) :=
  busWrite_cmd_rejected hidle hop (checkPreconditions_of_no_key hi hkeyv)

/-- Settles O18: `busWrite_cmd_of_busy`, `busWrite_cmd_illegal` and `busWrite_cmd_noKey` in the order of the rule, then each
command's own range check; the examples are cases of these. -/
theorem errorPriority : Obligations.ErrorPriority := by
  refine ⟨fun s v hbusy => busWrite_cmd_of_busy hbusy, fun s v hidle hv => busWrite_cmd_illegal hidle hv,
    fun s i hidle hkeyv hi => busWrite_cmd_noKey hidle hkeyv (decode_encode i) hi, fun s hidle => ?ranges,
    fun s hidle hkeyv _ => busWrite_cmd_noKey hidle hkeyv (decode_encode .addrk) (by simp),
    fun s hidle hkeyv _ => busWrite_cmd_noKey hidle hkeyv (decode_encode .encf) (by simp),
    fun s hbusy => busWrite_cmd_of_busy hbusy, fun s a => by simp⟩
  case ranges =>
    refine ⟨fun hkeyv hsel => ?addrkAccepted, fun hkeyv hsel => ?addrkRange, fun hkeyv hlen => ?encfRange,
      fun hlen => ?padRange, fun hlen => ?dotRange⟩
    case addrkAccepted =>
      exact busWrite_cmd_accepted hidle (decode_encode .addrk) (by simp [hkeyv, hsel])
    case addrkRange =>
      exact busWrite_cmd_rejected hidle (decode_encode .addrk) (c := .badRksel) (by simp [hkeyv, hsel])
    case encfRange =>
      exact busWrite_cmd_rejected hidle (decode_encode .encf) (c := .badLen) (by simp [hkeyv, hlen])
    case padRange =>
      exact busWrite_cmd_rejected hidle (decode_encode .pad) (c := .badLen) (by simp [hlen])
    case dotRange =>
      exact busWrite_cmd_rejected hidle (decode_encode .dot) (c := .badDotlen) (by simp [hlen])

/-! ### What an error leaves as it was (R276) -/

theorem portOf_eq_errcode (a : Byte) : portOf a = .errcode ↔ a = 0x22 := by
  simp only [portOf, apply_ite (· = Port.errcode)]
  simp
  bv_omega

/-- Raising an error changes what STATUS and ERRCODE show and nothing else. -/
theorem peek_raiseError (c : ErrCode) (r : Regs) {p : Port} (hst : p ≠ .status) (hcode : p ≠ .errcode) :
    peek (raiseError c r) p = peek r p := by
  cases p with
  | status => exact absurd rfl hst
  | errcode => exact absurd rfl hcode
  | _ => rfl

/-- Clearing DONE changes what STATUS shows and nothing else. -/
theorem peek_clearDone (r : Regs) {p : Port} (hst : p ≠ .status) : peek (clearDone r) p = peek r p := by
  cases p with
  | status => exact absurd rfl hst
  | _ => rfl

/-- A CMD write while BUSY = 0 rejects with some code or accepts a command (40_command_lifecycle.md R110). -/
theorem busWrite_cmd_cases (v : Byte) {s : State} (hidle : s.regs.busy = false) :
    (∃ c, busWrite 0x20 v s = .next (s.setRegs (reject c s.regs))) ∨
      ∃ i, busWrite 0x20 v s = .next (s.setRegs (accept i s.regs)) := by
  cases hv : decode v with
  | error c => exact .inl ⟨c, busWrite_cmd_illegal hidle hv⟩
  | ok i =>
    cases hcheck : checkPreconditions i s.regs with
    | some c => exact .inl ⟨c, busWrite_cmd_rejected hidle hv hcheck⟩
    | none => exact .inr ⟨i, busWrite_cmd_accepted hidle hv hcheck⟩

/-- Settles O19: a dropped write only raises BUSY_WRITE, and a command turned away clears DONE and raises the code of its cause. -/
theorem errorsArePrecise : Obligations.ErrorsArePrecise := by
  rintro s t a v hwrite (⟨hbusy, hin⟩ | ⟨hidle, rfl, hidle'⟩)
  · rw [busWrite_of_busy hbusy hin] at hwrite
    cases hwrite
    obtain ⟨hpos, hle⟩ := errorCode_bounds .busyWrite
    refine ⟨rfl, hpos, hle, fun _ => rfl, fun hidle => ?_, fun b hst hcode => ?_⟩
    · simp [hbusy] at hidle
    · exact peek_raiseError _ _ (mt (portOf_eq_status b).1 hst) (mt (portOf_eq_errcode b).1 hcode)
  · rcases busWrite_cmd_cases v hidle with ⟨c, hreject⟩ | ⟨i, haccept⟩
    · rw [hreject] at hwrite
      cases hwrite
      obtain ⟨hpos, hle⟩ := errorCode_bounds c
      refine ⟨rfl, hpos, hle, fun hbusy => ?_, fun _ => rfl, fun b hst hcode => ?_⟩
      · simp [hidle] at hbusy
      · have hst' : portOf b ≠ .status := mt (portOf_eq_status b).1 hst
        calc peek (reject c s.regs) (portOf b)
          _ = peek (clearDone s.regs) (portOf b) := peek_raiseError c _ hst' (mt (portOf_eq_errcode b).1 hcode)
          _ = peek s.regs (portOf b) := peek_clearDone _ hst'
    · rw [haccept] at hwrite
      cases hwrite
      cases hidle'

end Sys2Proof.Machine
end

section
/-! Proofs for 70_reset_and_hazards.md: reset (R300, R301), and that every run ends and stays ended (R321, R322). -/

namespace Sys2Proof.Machine

/-! ### Reset (R300, R301) -/

/-- A turn of RESET sets every register and is used up. -/
theorem step_reset {s : State} {rest : List Turn} (hsched : s.sched = .reset :: rest) :
    step s = .next { s with regs := State.reset.regs, sched := rest } := by
  simp only [step, nextTurn, turnOf, hsched, takeTurn, List.tail_cons]
  rfl

/-- Settles O8: the values are those of the reset state; `step_reset` sets them, and with BUSY = 0 a CORE turn does nothing. -/
theorem resetSetsEveryRegister : Obligations.ResetSetsEveryRegister := by
  refine ⟨rfl, rfl, fun s rest => step_reset, fun s rest hsched => ?_⟩
  refine ⟨_, { s with regs := State.reset.regs, sched := rest }, step_reset hsched, ?_, rfl⟩
  rw [step_core rfl]
  exact coreStep_of_idle rfl

/-! ### Every run ends (R321, R322)

The turns chosen, two steps for each statement and one for a pending command bound what is left of a run: a chosen turn is used
up whoever moves, and with none left the default turn completes the pending command or performs a statement. -/

/-- The HOST and CORE steps a state may still need: a write and its CORE step for each statement, and one for a pending command. -/
def workLeft (s : State) : Nat := 2 * s.program.length + s.regs.busy.toNat

/-- The steps a state may still need, with the turns chosen. -/
def stepsLeft (s : State) : Nat := s.sched.length + workLeft s

theorem workLeft_eq_zero (s : State) : workLeft s = 0 ↔ s.program = [] ∧ s.regs.busy = false := by
  simp [workLeft]

theorem runEnded_iff_stepsLeft (s : State) : RunEnded s ↔ stepsLeft s = 0 := by
  rw [stepsLeft, Nat.add_eq_zero_iff, workLeft_eq_zero, List.length_eq_zero_iff]
  exact and_left_comm

theorem stepsLeft_le_stepsToEnd (s : State) : stepsLeft s ≤ stepsToEnd s := by
  have := Bool.toNat_le s.regs.busy
  simp only [stepsLeft, workLeft, stepsToEnd]
  omega

theorem defaultTurn_of_idle {r : Regs} (h : r.busy = false) : defaultTurn r = .host := by
  simp [defaultTurn, h]

theorem idle_of_host_eq_defaultTurn {r : Regs} (h : .host = defaultTurn r) : r.busy = false := by
  by_contra hbusy
  simp [defaultTurn, hbusy] at h

theorem reset_ne_defaultTurn (r : Regs) : .reset ≠ defaultTurn r := by
  unfold defaultTurn
  split <;> nofun

/-- A HOST step performs its statement, but for a POLL while BUSY = 1, which changes neither the program nor a register. -/
theorem hostStep_cases (stmt : HostStmt) (rest : List HostStmt) (s : State) :
    ∃ u, hostStep stmt rest s = .next u ∧ u.sched = s.sched ∧
      (u.program = rest ∨ (s.regs.busy = true ∧ u.program = s.program ∧ u.regs = s.regs)) := by
  cases stmt with
  | bus transaction =>
    cases transaction with
    | wr a d =>
      obtain ⟨r, hwrite, -⟩ := busWrite_cases a d { s with program := rest }
      exact ⟨_, hwrite, rfl, .inl rfl⟩
    | rd a => exact ⟨_, rfl, hostRead_sched a s, .inl rfl⟩
  | poll =>
    simp only [hostStep, hostRead, busRead_status, statusByte_busy]
    cases s.regs.busy with
    | true => exact ⟨_, rfl, rfl, .inr ⟨rfl, rfl, rfl⟩⟩
    | false => exact ⟨_, rfl, rfl, .inl rfl⟩

/-- No turn adds work, and the default turn takes work away where some is left. -/
theorem takeTurn_workLeft (turn : Turn) (s : State) :
    ∃ u, takeTurn turn s = .next u ∧ u.sched = s.sched ∧ workLeft u ≤ workLeft s ∧
      (turn = defaultTurn s.regs → workLeft s ≠ 0 → workLeft u < workLeft s) := by
  cases turn with
  | reset =>
    refine ⟨_, rfl, rfl, ?_, fun hturn => ?_⟩
    · simp [workLeft, State.setRegs, Regs.reset]
    · exact absurd hturn (reset_ne_defaultTurn s.regs)
  | core =>
    obtain ⟨r, hstep, hr⟩ := coreStep_cases s
    refine ⟨_, hstep, rfl, ?_⟩
    rcases hr with ⟨hidle, rfl⟩ | ⟨hbusy, -, rfl⟩ | ⟨i, hbusy, -, rfl⟩
    · exact ⟨le_rfl, fun hturn => by simp [defaultTurn_of_idle hidle] at hturn⟩
    all_goals simp [workLeft, State.setRegs, hbusy]
  | host =>
    simp only [takeTurn]
    cases hprog : s.program with
    | nil =>
      refine ⟨s, rfl, rfl, le_rfl, fun hturn hwork => absurd ?_ hwork⟩
      exact (workLeft_eq_zero s).2 ⟨hprog, idle_of_host_eq_defaultTurn hturn⟩
    | cons stmt rest =>
      obtain ⟨u, hstep, hsched, hrest | ⟨hbusy, hkept, hregs⟩⟩ := hostStep_cases stmt rest s
      · have hless : workLeft u < workLeft s := by
          have := Bool.toNat_le u.regs.busy
          simp only [workLeft, hrest, hprog, List.length_cons]
          omega
        exact ⟨u, hstep, hsched, hless.le, fun _ _ => hless⟩
      · have hsame : workLeft u = workLeft s := by simp only [workLeft, hkept, hregs]
        refine ⟨u, hstep, hsched, hsame.le, fun hturn => ?_⟩
        simp [idle_of_host_eq_defaultTurn hturn] at hbusy

/-- Every step of a run that has not ended brings it closer to its end. -/
theorem step_stepsLeft {s : State} (h : stepsLeft s ≠ 0) : ∃ t, step s = .next t ∧ stepsLeft t < stepsLeft s := by
  obtain ⟨t, hstep, hsched, hle, hless⟩ := takeTurn_workLeft (turnOf s) { s with sched := s.sched.tail }
  refine ⟨t, hstep, ?_⟩
  have hwork : workLeft { s with sched := s.sched.tail } = workLeft s := rfl
  rw [hwork] at hle hless
  rw [stepsLeft, stepsLeft, hsched]
  cases hturns : s.sched with
  | nil =>
    have hnone : workLeft s ≠ 0 := by simpa [stepsLeft, hturns] using h
    have hdefault : turnOf s = defaultTurn s.regs := by simp only [turnOf, hturns]
    simpa using hless hdefault hnone
  | cons turn turns =>
    simp only [List.tail_cons, List.length_cons]
    omega

theorem step_of_runEnded {s : State} (h : RunEnded s) : step s = .next s := by
  obtain ⟨r, program, sched, reads, draws⟩ := s
  obtain ⟨rfl, rfl, hidle⟩ := h
  simp only [step, nextTurn, turnOf, defaultTurn_of_idle hidle, takeTurn, List.tail_nil]

/-- A run of as many steps as are left, or more, ends. -/
theorem exists_run_ended (n : Nat) (s : State) (h : stepsLeft s ≤ n) : ∃ t, core.run n s = .next t ∧ RunEnded t := by
  induction n generalizing s with
  | zero => exact ⟨s, rfl, (runEnded_iff_stepsLeft s).2 (Nat.le_zero.1 h)⟩
  | succ n ih =>
    have hnext : ∃ u, step s = .next u ∧ stepsLeft u ≤ n := by
      by_cases hend : stepsLeft s = 0
      · exact ⟨s, step_of_runEnded ((runEnded_iff_stepsLeft s).2 hend), by omega⟩
      · obtain ⟨u, hstep, hless⟩ := step_stepsLeft hend
        exact ⟨u, hstep, by omega⟩
    obtain ⟨u, hstep, hle⟩ := hnext
    rw [run_of_next (M := core) hstep]
    exact ih u hle

/-- Settles O38: `stepsLeft` falls at every step until the run has ended, and it is at most `stepsToEnd`. -/
theorem everyRunEnds : Obligations.EveryRunEnds :=
  ⟨fun s => exists_run_ended (stepsToEnd s) s (stepsLeft_le_stepsToEnd s), fun _ => step_of_runEnded⟩

end Sys2Proof.Machine
end
